-- ==== Sys2Proof/Word.lean ====
section
/-! DEFINITION. The word types: a command word or result (30_encoding.md R70, R72) and the frame register (10_state.md R22). -/

namespace Sys2Proof

/-- A command word, a result, or the counter's register: 32 bits (R70, R72, R32). -/
abbrev Word := BitVec 32

/-- The frame register as a 32-bit word, the width in which FRAME_GET returns it, for every FRAME_W: its bits from 15 up are always 0
(R7, R24; assumption log 12). -/
abbrev FrameWord := BitVec 32

/-- One row of a frame, WIDTH = 5 bits (40_frame.md R101). -/
abbrev Chunk := BitVec 5

end Sys2Proof
end

