-- ==== Sys2Proof/Config.lean ====
section
/-! DEFINITION. The configuration of 00_scope.md R6 and R7, fixed for one machine, and the free values the spec leaves open. -/

namespace Sys2Proof

/-- Columns of the matrix (R6): the 5 of the types `Vector Bool 5` and `Fin 5`. -/
abbrev Config.WIDTH : Nat := 5
/-- Rows of the matrix (R6): the 3 of the types `Vector Bool 3` and `Fin 3`. -/
abbrev Config.HEIGHT : Nat := 3
/-- Number of dot bits, WIDTH times HEIGHT (R7). -/
abbrev Config.FRAME_BITS : Nat := Config.WIDTH * Config.HEIGHT

/-- The parameters of R7 that a model takes as named arguments. A level is the logic level of a line, true = 1. -/
structure ParamValues where
  /-- FRAME_W, the width of the frame register (D3; assumption log 12). -/
  frameW : Nat
  /-- TB_WIDTH, the width of the millisecond counter. -/
  tbWidth : Nat
  /-- PART_W, the width of one counter part. -/
  partW : Nat
  /-- TB_INC, whole milliseconds per tick. -/
  tbInc : Nat
  /-- TB_FRAC_INC, fractional units per tick. -/
  tbFracInc : Nat
  /-- TB_FRAC_MAX, fractional units in one millisecond. -/
  tbFracMax : Nat
  /-- TICK_PERIOD_US, nominal; no rule depends on it (R162). -/
  tickPeriodUs : Nat
  /-- ROW_ACTIVE_LEVEL. -/
  rowActiveLevel : Bool
  /-- COL_ACTIVE_LEVEL. -/
  colActiveLevel : Bool
deriving DecidableEq, Repr

/-- The constraints R7 says a model must check on its arguments, in its order. -/
def ParamValues.ok (p : ParamValues) : Bool :=
  decide (Config.FRAME_BITS ≤ p.frameW) && decide (p.partW < p.tbWidth) && decide (p.tbWidth % p.partW = 0) &&
    decide (16 ≤ p.tbWidth) && decide (p.tbWidth ≤ 32) && decide (1 ≤ p.tbFracMax) &&
    decide (p.tbFracInc < p.tbFracMax) && decide (p.tbInc + 1 < 2 ^ p.tbWidth)

/-- A checked set of parameters: one that breaks R7's constraints cannot be built (assumption log 11). -/
structure Params extends ParamValues where
  /-- R7's constraints hold. -/
  checked : toParamValues.ok = true
deriving DecidableEq, Repr

/-- NPARTS = TB_WIDTH / PART_W (R7, R53). -/
def ParamValues.nparts (p : ParamValues) : Nat := p.tbWidth / p.partW

/-- The defaults of R7: 16-bit frame register, 32-bit counter, 8-bit parts, an exact 1 ms tick, both lines active low. -/
def Params.default : Params where
  frameW := 16
  tbWidth := 32
  partW := 8
  tbInc := 1
  tbFracInc := 0
  tbFracMax := 1
  tickPeriodUs := 1000
  rowActiveLevel := false
  colActiveLevel := false
  checked := by decide

/-- FREE VALUE: the row-enable lines while FAULT = 1 (60_exceptions.md R243, S2; assumption log 9). -/
opaque Config.freeRows : Nat → Vector Bool 3

/-- FREE VALUE: the column lines while FAULT = 1 (R243, S2; assumption log 9). -/
opaque Config.freeCols : Nat → Vector Bool 5

/-- FREE VALUE: TB_COUNT after the reset input, before it is cut to TB_WIDTH bits (10_state.md R41, S1; assumption log 8). -/
opaque Config.freeCount : Nat → Nat

/-- FREE VALUE: TB_FRAC after the reset input (R41, S1; assumption log 8). -/
opaque Config.freeFrac : Nat → Nat

/-- FREE VALUE: the animation frame the driver selects with ANIM_PERIOD_MS = 0, for which 44_collaborators.md R223 gives none
(assumption log 22). -/
opaque Config.freeAnimIndex : Nat → Fin 15

end Sys2Proof
end

