-- ==== Sys2Proof/Syntax.lean ====
section
/-! DEFINITION. The commands of 30_encoding.md R75 as abstract syntax, one constructor per row of the opcode table. -/

namespace Sys2Proof

/-- A command of dots-core. Operands are unsigned numbers "taken as they stand" (R74); WellFormed says which fit their
field (assumption log 17). -/
inductive Instr where
  /-- FRAME_SET raw (form raw16). -/
  | frameSet (raw : Nat)
  /-- FRAME_GET (form none). -/
  | frameGet
  /-- ROW_GET idx (form idx2). -/
  | rowGet (idx : Nat)
  /-- REFRESH (form none). -/
  | refresh
  /-- STATUS_GET (form none). -/
  | statusGet
  /-- TB_INIT (form none). -/
  | tbInit
  /-- TB_READ (form none). -/
  | tbRead
  /-- TB_READ_PART k (form part8). -/
  | tbReadPart (k : Nat)
  /-- IE_SET v (form bit1). -/
  | ieSet (v : Bool)
deriving DecidableEq, Repr

end Sys2Proof
end

