-- ==== Sys2Proof/WellFormed.lean ====
section
/-! DEFINITION. Which commands the encoding admits: the operand fits its field (30_encoding.md R74, R81). -/

namespace Sys2Proof

/-- The operand fits the field its form gives it: 16 bits for raw, 2 for idx, 8 for k, 1 for v. ROW_GET 3 and a part
index of NPARTS or more are well formed: they "pass decode but fault at execute" (R77). -/
def Instr.wf : Instr → Bool
  | .frameSet raw => decide (raw < 2 ^ 16)
  | .frameGet => true
  | .rowGet idx => decide (idx < 2 ^ 2)
  | .refresh => true
  | .statusGet => true
  | .tbInit => true
  | .tbRead => true
  | .tbReadPart k => decide (k < 2 ^ 8)
  | .ieSet _ => true

end Sys2Proof
end

