-- ==== Sys2Proof/Decode.lean ====
section
/-! DEFINITION. Decoding a command word (30_encoding.md R70 to R79), total on all 32-bit words and rejecting by name; the
encoder; the opcode map of R75 as written there. -/

namespace Sys2Proof

/-- The nine assigned values of OP (R75). -/
inductive Opcode where
  | frameSet | frameGet | rowGet | refresh | statusGet | tbInit | tbRead | tbReadPart | ieSet
deriving DecidableEq, Repr

/-- Every assigned opcode, in the order of R75. -/
def Opcode.all : List Opcode :=
  [.frameSet, .frameGet, .rowGet, .refresh, .statusGet, .tbInit, .tbRead, .tbReadPart, .ieSet]

/-- The OP column of R75. -/
def Opcode.bits : Opcode → BitVec 8
  | .frameSet => 0x01
  | .frameGet => 0x02
  | .rowGet => 0x03
  | .refresh => 0x04
  | .statusGet => 0x05
  | .tbInit => 0x10
  | .tbRead => 0x11
  | .tbReadPart => 0x12
  | .ieSet => 0x20

/-- The opcode with these bits, if they are assigned (R73). -/
def Opcode.ofBits (b : BitVec 8) : Option Opcode := Opcode.all.find? fun o => o.bits == b

/-- The operand forms of R74. -/
inductive Form where
  | none | raw16 | idx2 | part8 | bit1
deriving DecidableEq, Repr

/-- The form column of R75. -/
def Opcode.form : Opcode → Form
  | .frameSet => .raw16
  | .rowGet => .idx2
  | .tbReadPart => .part8
  | .ieSet => .bit1
  | .frameGet => .none
  | .refresh => .none
  | .statusGet => .none
  | .tbInit => .none
  | .tbRead => .none

/-- How many low bits of DATA the operand takes; the bits above must be 0 (R74). -/
def Form.operandBits : Form → Nat
  | .none => 0
  | .raw16 => 16
  | .idx2 => 2
  | .part8 => 8
  | .bit1 => 1

/-- The operand in DATA: the field as an unsigned number, or nothing if a "must be 0" bit is set (R74). -/
def Form.operand? (f : Form) (data : BitVec 16) : Option Nat :=
  if data.toNat < 2 ^ f.operandBits then some data.toNat else Option.none

/-- The command of an opcode with its operand. -/
def Opcode.instr (o : Opcode) (x : Nat) : Instr :=
  match o with
  | .frameSet => .frameSet x
  | .frameGet => .frameGet
  | .rowGet => .rowGet x
  | .refresh => .refresh
  | .statusGet => .statusGet
  | .tbInit => .tbInit
  | .tbRead => .tbRead
  | .tbReadPart => .tbReadPart x
  | .ieSet => .ieSet (x == 1)

/-- Why a word is illegal: all three raise the one Fault(ILLEGAL_COMMAND) (R76; assumption log 18). -/
inductive Illegal where
  /-- OP is not one of the nine opcodes. -/
  | opcode
  /-- RSV is not 0. -/
  | reserved
  /-- A "must be 0" bit of DATA is set. -/
  | operand
deriving DecidableEq, Repr

/-- What a word decodes to: a command, or "illegal" (R79). -/
inductive Decoded where
  | command (i : Instr)
  | illegal (why : Illegal)
deriving DecidableEq, Repr

/-- The OP field CW[31:24] (R70). -/
def opField (w : Word) : BitVec 8 := w.extractLsb' 24 8
/-- The RSV field CW[23:16] (R70). -/
def rsvField (w : Word) : BitVec 8 := w.extractLsb' 16 8
/-- The DATA field CW[15:0] (R70). -/
def dataField (w : Word) : BitVec 16 := w.extractLsb' 0 16

/-- Decode, as R73 orders it: OP, then RSV, then DATA by the opcode's form. -/
def decode (w : Word) : Decoded :=
  match Opcode.ofBits (opField w) with
  | Option.none => .illegal .opcode
  | some o =>
    if rsvField w ≠ 0 then .illegal .reserved
    else match o.form.operand? (dataField w) with
      | Option.none => .illegal .operand
      | some x => .command (o.instr x)

/-- The command a word decodes to, if it is legal. -/
def Decoded.toOption : Decoded → Option Instr
  | .command i => some i
  | .illegal _ => Option.none

/-- A command's opcode (R75). -/
def Instr.opcode : Instr → Opcode
  | .frameSet _ => .frameSet
  | .frameGet => .frameGet
  | .rowGet _ => .rowGet
  | .refresh => .refresh
  | .statusGet => .statusGet
  | .tbInit => .tbInit
  | .tbRead => .tbRead
  | .tbReadPart _ => .tbReadPart
  | .ieSet _ => .ieSet

/-- A command's operand as it stands in DATA; 0 for a form without one (R74). -/
def Instr.data : Instr → Nat
  | .frameSet raw => raw
  | .rowGet idx => idx
  | .tbReadPart k => k
  | .ieSet v => v.toNat
  | .frameGet => 0
  | .refresh => 0
  | .statusGet => 0
  | .tbInit => 0
  | .tbRead => 0

/-- The command word OP ++ RSV ++ DATA with RSV = 0 (R70). -/
def encode (i : Instr) : Word := i.opcode.bits ++ (0 : BitVec 8) ++ BitVec.ofNat 16 i.data

/-- A row of the opcode map as R75 writes it. -/
structure OpRow where
  opcode : Opcode
  pattern : Word
  mask : Word
deriving DecidableEq, Repr

/-- The match and mask columns of R75, copied from the table and used by no decoding step: a word "encodes the command of a
row exactly when CW & mask = match". -/
def opcodeMap : List OpRow :=
  [⟨.frameSet, 0x01000000, 0xFFFF0000⟩, ⟨.frameGet, 0x02000000, 0xFFFFFFFF⟩, ⟨.rowGet, 0x03000000, 0xFFFFFFFC⟩,
   ⟨.refresh, 0x04000000, 0xFFFFFFFF⟩, ⟨.statusGet, 0x05000000, 0xFFFFFFFF⟩, ⟨.tbInit, 0x10000000, 0xFFFFFFFF⟩,
   ⟨.tbRead, 0x11000000, 0xFFFFFFFF⟩, ⟨.tbReadPart, 0x12000000, 0xFFFFFF00⟩, ⟨.ieSet, 0x20000000, 0xFFFFFFFE⟩]

/-- The word matches the row (R75). -/
def OpRow.matches (r : OpRow) (w : Word) : Bool := w &&& r.mask == r.pattern

/-- The command word the opcode table numbers as w: nbits bits, the bits above them 0. -/
def tableWord (nbits w : Nat) : Word := BitVec.ofNat 32 (w % 2 ^ nbits)

/-- The instruction the decoder reads from an opcode-table word. Every command is 32 bits, delivered whole (R54, R78), so a
row of more than 32 bits is no command (assumption log 18). -/
def decodeTableWord (nbits w : Nat) : Option Instr :=
  if nbits ≤ 32 then (decode (tableWord nbits w)).toOption else Option.none

end Sys2Proof
end

