-- ==== Sys2Proof/Machine/State.lean ====
section
/-! DEFINITION. The state of the block (10_state.md R22) as plain data, beside it what the model needs to drive and observe
it, and the state right after reset (R41). -/

namespace Sys2Proof.Machine

/-- FCODE by name (60_exceptions.md R242): the cause of the fault that set FAULT, none while FAULT = 0. Codes 5 to 15 are
never used (assumption log 16). -/
inductive FaultCode where
  /-- 0: no fault. -/
  | none
  /-- 1: a word that is no command, or TB_READ_PART k with k >= NPARTS. -/
  | illegalCommand
  /-- 2: ROW_GET with idx >= HEIGHT. -/
  | rowIndex
  /-- 3: TB_READ or TB_READ_PART while TB_RUN = 0. -/
  | readBeforeInit
  /-- 4: TB_INIT while TB_RUN = 1. -/
  | reinit
deriving DecidableEq, Repr

/-- One snapshot of the output lines in logical states, true = active (41_display.md R131). -/
structure Snapshot where
  rows : Vector Bool 3
  cols : Vector Bool 5
deriving DecidableEq, Repr

/-- No row and no column active: the baseline of REFRESH's first step and of reset (R132, R280). -/
def Snapshot.allOff : Snapshot := ⟨#v[false, false, false], #v[false, false, false, false, false]⟩

/-- One step some agent asks for (60_exceptions.md R250). -/
inductive Event where
  /-- The host issues a command word. -/
  | command (w : Word)
  /-- The tick source's tick event (42_timebase.md R163). -/
  | tick
  /-- The tick service, the interrupt handler (R165). -/
  | service
  /-- The reset input (70_reset_and_hazards.md R280). -/
  | reset
deriving DecidableEq, Repr

/-- The state. From `frame` to `fcode` it is the record of R22, "nothing else is state"; the last five fields are the
model's own. -/
structure State where
  /-- FRAME: the current frame; the bits from 15 up are always 0 (R23, R24). -/
  frame : FrameWord
  /-- CURSOR: the row the next refresh step lights (R25, R26). -/
  cursor : Fin 3
  /-- ROW_ACT: the row-enable outputs, true = active (R27). -/
  rowAct : Vector Bool 3
  /-- COL_ACT: the column outputs, true = active (R28). -/
  colAct : Vector Bool 5
  /-- TB_COUNT: elapsed milliseconds, TB_WIDTH bits; the bits above them are 0 (R32; assumption log 13). -/
  tbCount : Word
  /-- TB_FRAC: the rate-correction accumulator (R33). -/
  tbFrac : Nat
  /-- TB_RUN: the tick source is on (R34). -/
  tbRun : Bool
  /-- TPEND: a tick is pending (R35). -/
  tpend : Bool
  /-- IE: interrupt enable (R36). -/
  ie : Bool
  /-- FAULT: the block has fail-stopped (R37). -/
  fault : Bool
  /-- FCODE (R37). -/
  fcode : FaultCode
  /-- MODEL'S OWN: the parameters of R7; no step writes them (assumption log 11). -/
  cfg : Params
  /-- MODEL'S OWN: the steps the agents still ask for, oldest first (assumption log 1). -/
  schedule : List Event
  /-- MODEL'S OWN: the output trace of R131, oldest snapshot first (assumption log 6). -/
  trace : List Snapshot
  /-- MODEL'S OWN: the value the latest step delivered to the host, if it delivered one (R72; assumption log 5). -/
  result : Option Word
  /-- MODEL'S OWN: how many free values have been drawn (assumption log 10). -/
  draws : Nat
deriving DecidableEq, Repr

/-- Why a step stops with a fault: never. Every fault of dots-core is entered by R241, which is a next state with FAULT = 1,
and nobody raises a stop (safe: a machine that never stops hides no behaviour; assumption log 15). -/
inductive Fault
deriving DecidableEq, Repr

/-- Why a step is refused. -/
inductive Refusal where
  /-- Raised by an arm of exec that has no meaning yet, and by nothing else; no arm is left in that case (safe: the model
  stops where the hardware goes on). -/
  | notModelled (mnemonic : String)
deriving DecidableEq, Repr

/-- The state right after reset (R41, R280): the reset snapshot is in the trace, nothing is scheduled. TB_COUNT and TB_FRAC
are unspecified in R41; the 0 in them is the model's choice (assumption log 7). -/
def State.reset : State where
  frame := 0
  cursor := 0
  rowAct := Snapshot.allOff.rows
  colAct := Snapshot.allOff.cols
  tbCount := 0
  tbFrac := 0
  tbRun := false
  tpend := false
  ie := false
  fault := false
  fcode := .none
  cfg := Params.default
  schedule := []
  trace := [Snapshot.allOff]
  result := none
  draws := 0

end Sys2Proof.Machine
end

