-- ==== Sys2Proof/Machine/Ops.lean ====
section
/-! DEFINITION. The shared operations every step is built from: accepting a command, delivering a result, driving the output
lines, raising a fault, the reset that ends one, and masking the tick interrupt. -/

namespace Sys2Proof.Machine

/-- The three outcomes of a step over this machine's types. -/
abbrev Outcome := Host.Outcome State Fault Refusal

/-- The step delivers v to the issuing host: "return v" (00_scope.md R9, 30_encoding.md R72). -/
def deliver (v : Word) (s : State) : State := { s with result := some v }

/-- The step returns nothing (R72). -/
def silent (s : State) : State := { s with result := none }

/-- "emit Pins(rows, cols)": drive the lines and append the snapshot to the output trace (41_display.md R131). -/
def emit (rows : Vector Bool 3) (cols : Vector Bool 5) (s : State) : State :=
  { s with rowAct := rows, colAct := cols, trace := s.trace ++ [⟨rows, cols⟩] }

/-- The output lines take values nothing constrains: "a model treats every output line as any value after a fault"
(60_exceptions.md R243, 93_implementation_defined.md S2; assumption log 9). Not part of the trace (D43). -/
def drawOutputs (s : State) : State :=
  { s with rowAct := Config.freeRows s.draws, colAct := Config.freeCols s.draws, draws := s.draws + 1 }

/-- "raise Fault(code)" (60_exceptions.md R241), the one entry into the fail-stop: FAULT <- 1, FCODE <- code, IE <- 0, no
result, no other effect; the output lines are unspecified from here on (R243). -/
def raiseFault (code : FaultCode) (s : State) : State :=
  drawOutputs { s with fault := true, fcode := code, ie := false, result := none }

/-- Reset (70_reset_and_hazards.md R280), the only way out of a fault (R244, R249): every element takes its value of
10_state.md R41 and the all-off snapshot is emitted. TB_COUNT and TB_FRAC are unspecified and drawn free (assumption log 8);
the parameters and the schedule are not the block's state and stay (assumption log 24). -/
def resetInput (s : State) : State :=
  emit Snapshot.allOff.rows Snapshot.allOff.cols
    { s with
      frame := 0
      cursor := 0
      tbCount := BitVec.ofNat 32 (Config.freeCount s.draws % 2 ^ s.cfg.tbWidth)
      tbFrac := Config.freeFrac s.draws
      tbRun := false
      tpend := false
      ie := false
      fault := false
      fcode := .none
      result := none
      draws := s.draws + 1 }

/-- A step that finds FAULT = 1 and is no reset: nothing happens and nothing is returned (R244, V64), while the output lines
go on changing freely (S2; assumption logs 9 and 14). -/
def halted (s : State) : State := drawOutputs (silent s)

/-- Every command first reads FAULT (10_state.md R39): "While FAULT = 1 the block accepts no command" (R244). -/
def accept (s : State) (body : State → Outcome) : Outcome :=
  if s.fault then .next (halted s) else body s

/-- A step the tick source asks for: it happens if it is enabled (42_timebase.md R163, R165); if not, nothing does
(assumption log 2). -/
def ifEnabled (enabled : Bool) (s : State) (body : State → State) : State :=
  if s.fault then halted s else if enabled then silent (body s) else silent s

/-- Save IE, clear it, run the read, restore IE: "suspend interrupts for the duration of the multi-part read and restore the
prior interrupt-enable state afterward" (42_timebase.md R167). -/
def withTicksMasked (read : State → Word) (s : State) : Word × State :=
  let saved := s.ie
  let masked := { s with ie := false }
  let v := read masked
  (v, { masked with ie := saved })

end Sys2Proof.Machine
end

