-- ==== Sys2Proof/Machine/Operands.lean ====
section
/-! DEFINITION. The values commands name by index: frames, rows, columns and counter parts (40_frame.md R100 to R102,
20_memory.md R51 and R53), and the electrical view of the outputs (10_state.md R29). -/

namespace Sys2Proof.Machine

/-- construct(raw) = zext_FRAME_W(raw[14:0]), for a raw value of any width (R100), as the frame register holds it. -/
def construct (p : ParamValues) (raw : Nat) : FrameWord :=
  ((BitVec.ofNat Config.FRAME_BITS raw).setWidth p.frameW).setWidth 32

/-- chunk(f, r): the WIDTH-bit field of f at shift (HEIGHT-1-r)*WIDTH (R101). -/
def chunk (f : FrameWord) (r : Fin 3) : Chunk :=
  (f >>> ((Config.HEIGHT - 1 - r.val) * Config.WIDTH)).setWidth Config.WIDTH

/-- row(f, r): the chunk as WIDTH booleans, column 0 first, which is the chunk's most significant bit (R102). -/
def row (f : FrameWord) (r : Fin 3) : Vector Bool 5 :=
  #v[(chunk f r)[4], (chunk f r)[3], (chunk f r)[2], (chunk f r)[1], (chunk f r)[0]]

/-- onehot(r)[i] = 1 iff i = r (41_display.md R132). -/
def onehot (r : Fin 3) : Vector Bool 3 := #v[r == 0, r == 1, r == 2]

/-- (r + 1) mod HEIGHT (R132). -/
def nextRow (r : Fin 3) : Fin 3 := ⟨(r.val + 1) % Config.HEIGHT, Nat.mod_lt _ (by decide)⟩

/-- A row index is in range below HEIGHT; the others are the ROW_INDEX cause (R108, R242). -/
def rowIndex? (idx : Nat) : Option (Fin 3) :=
  if h : idx < Config.HEIGHT then some ⟨idx, h⟩ else none

/-- Part k of the counter, TB_COUNT[PART_W*k+PART_W-1 : PART_W*k], zero-extended (20_memory.md R53, 42_timebase.md R170). -/
def countPart (p : ParamValues) (count : Word) (k : Nat) : Word :=
  BitVec.ofNat 32 (count.toNat >>> (p.partW * k) % 2 ^ p.partW)

/-- The bit index of the dot at row r, column c (20_memory.md R51). -/
def dotBit (r : Fin 3) (c : Fin 5) : Nat :=
  (Config.HEIGHT - 1 - r.val) * Config.WIDTH + (Config.WIDTH - 1 - c.val)

/-- The electrical level of a line with this active level in this logical state, true = 1 (10_state.md R29). -/
def lineLevel (activeLevel act : Bool) : Bool := if act then activeLevel else !activeLevel

/-- ROW_PIN[i] (R29). -/
def rowPin (s : State) (i : Fin 3) : Bool := lineLevel s.cfg.rowActiveLevel s.rowAct[i]

/-- COL_PIN[c] (R29). -/
def colPin (s : State) (c : Fin 5) : Bool := lineLevel s.cfg.colActiveLevel s.colAct[c]

/-- lit(r, c) = rows[r] AND cols[c] of a snapshot (41_display.md R141). -/
def Snapshot.lit (p : Snapshot) (r : Fin 3) (c : Fin 5) : Bool := p.rows[r] && p.cols[c]

end Sys2Proof.Machine
end

