-- ==== Sys2Proof/Machine/Flags.lean ====
section
/-! DEFINITION. The status word (10_state.md R38), the numbers of FCODE (60_exceptions.md R242) and the arithmetic of the tick
service (42_timebase.md R165). -/

namespace Sys2Proof.Machine

/-- A one-bit state element as a bit. -/
def flagBit (b : Bool) : BitVec 1 := BitVec.ofBool b

/-- zext_32(IE ++ TPEND ++ TB_RUN ++ CURSOR) (R38, 41_display.md R140). -/
def statusWord (s : State) : Word :=
  (flagBit s.ie ++ flagBit s.tpend ++ flagBit s.tbRun ++ BitVec.ofNat 2 s.cursor.val).setWidth 32

/-- FCODE as its 4-bit number (10_state.md R37, 60_exceptions.md R242). -/
def FaultCode.number : FaultCode → BitVec 4
  | .none => 0
  | .illegalCommand => 1
  | .rowIndex => 2
  | .readBeforeInit => 3
  | .reinit => 4

/-- s = TB_FRAC + TB_FRAC_INC, a natural number (R165). -/
def fracSum (p : ParamValues) (frac : Nat) : Nat := frac + p.tbFracInc

/-- carry = 1 if s >= TB_FRAC_MAX else 0 (R165). -/
def tickCarry (p : ParamValues) (frac : Nat) : Nat := if p.tbFracMax ≤ fracSum p frac then 1 else 0

/-- The accumulator after a service (R165). -/
def nextFrac (p : ParamValues) (frac : Nat) : Nat := fracSum p frac - tickCarry p frac * p.tbFracMax

/-- What a service adds to the counter: TB_INC + carry (R165). -/
def tickGain (p : ParamValues) (frac : Nat) : Nat := p.tbInc + tickCarry p frac

/-- The counter after a service, modulo 2^TB_WIDTH: the wraparound is no fault (R165, R174). -/
def nextCount (p : ParamValues) (count : Word) (frac : Nat) : Word :=
  BitVec.ofNat 32 ((count.toNat + tickGain p frac) % 2 ^ p.tbWidth)

end Sys2Proof.Machine
end

