-- ==== Sys2Proof/Machine/Display.lean ====
section
/-! DEFINITION. The display commands REFRESH and STATUS_GET (41_display.md R132, R140). -/

namespace Sys2Proof.Machine

/-- The four steps of a refresh (R132): all off; the row at the cursor; the lit columns of that row; advance the cursor. -/
def refreshStep (s : State) : State :=
  let r := s.cursor
  let s1 := emit Snapshot.allOff.rows Snapshot.allOff.cols s
  let s2 := emit (onehot r) Snapshot.allOff.cols s1
  let s3 := emit (onehot r) (row s.frame r) s2
  { s3 with cursor := nextRow r }

/-- REFRESH (R132). -/
def execRefresh (s : State) : Outcome :=
  accept s fun s => .next (silent (refreshStep s))

/-- STATUS_GET (R140). -/
def execStatusGet (s : State) : Outcome :=
  accept s fun s => .next (deliver (statusWord s) s)

end Sys2Proof.Machine
end

