-- ==== Sys2Proof/Machine/Frame.lean ====
section
/-! DEFINITION. The frame-store commands FRAME_SET, FRAME_GET and ROW_GET (40_frame.md R106 to R108). -/

namespace Sys2Proof.Machine

/-- FRAME_SET raw (R106): FRAME <- construct(raw). -/
def execFrameSet (raw : Nat) (s : State) : Outcome :=
  accept s fun s => .next (silent { s with frame := construct s.cfg.toParamValues raw })

/-- FRAME_GET (R107): return zext_32(FRAME), which is the register's word. -/
def execFrameGet (s : State) : Outcome :=
  accept s fun s => .next (deliver s.frame s)

/-- ROW_GET idx (R108): return zext_32(chunk(FRAME, idx)), or Fault(ROW_INDEX) for idx >= HEIGHT. -/
def execRowGet (idx : Nat) (s : State) : Outcome :=
  accept s fun s =>
    match rowIndex? idx with
    | some r => .next (deliver ((chunk s.frame r).setWidth 32) s)
    | none => .next (raiseFault .rowIndex s)

end Sys2Proof.Machine
end

