-- ==== Sys2Proof/Machine/Interrupt.lean ====
section
/-! DEFINITION. The interrupt-enable command IE_SET (43_interrupt_control.md R201). -/

namespace Sys2Proof.Machine

/-- IE_SET v (R201): IE <- v. -/
def execIeSet (v : Bool) (s : State) : Outcome :=
  accept s fun s => .next (silent { s with ie := v })

end Sys2Proof.Machine
end

