-- ==== Sys2Proof/Machine/Timebase.lean ====
section
/-! DEFINITION. The timebase: TB_INIT, TB_READ and TB_READ_PART (42_timebase.md R161, R167, R170), and the two steps of the
tick source (R163, R165). -/

namespace Sys2Proof.Machine

/-- TB_INIT (R161): the counter, the accumulator and the pending flag are cleared and the tick source starts; a second one
raises Fault(REINIT). -/
def execTbInit (s : State) : Outcome :=
  accept s fun s =>
    if s.tbRun then .next (raiseFault .reinit s)
    else .next (silent { s with tbCount := 0, tbFrac := 0, tpend := false, tbRun := true })

/-- TB_READ (R167): the whole counter as of one instant, with ticks masked during the read and IE restored after it; the
check comes before IE is touched (C11). -/
def execTbRead (s : State) : Outcome :=
  accept s fun s =>
    if s.tbRun then
      let (v, t) := withTicksMasked (fun m => m.tbCount) s
      .next (deliver v t)
    else .next (raiseFault .readBeforeInit s)

/-- TB_READ_PART k (R170): one part of the counter; the index is checked before the state (60_exceptions.md R245). -/
def execTbReadPart (k : Nat) (s : State) : Outcome :=
  accept s fun s =>
    if s.cfg.nparts ≤ k then .next (raiseFault .illegalCommand s)
    else if s.tbRun then .next (deliver (countPart s.cfg.toParamValues s.tbCount k) s)
    else .next (raiseFault .readBeforeInit s)

/-- The tick event is enabled whenever TB_RUN = 1 and FAULT = 0 (R163). -/
def tickEnabled (s : State) : Bool := s.tbRun && !s.fault

/-- Tick event: TPEND <- 1; while TPEND = 1 it changes nothing and is lost (R163, R164). -/
def tickEvent (s : State) : State := ifEnabled (tickEnabled s) s fun s => { s with tpend := true }

/-- Tick service is enabled whenever TPEND = 1, IE = 1 and FAULT = 0 (R165). -/
def serviceEnabled (s : State) : Bool := s.tpend && s.ie && !s.fault

/-- The counter update of the interrupt handler (R165): the whole of taking the tick interrupt, it saves no state and jumps
to no vector (60_exceptions.md R248), and ends by itself (R249). -/
def serviceUpdate (s : State) : State :=
  { s with
    tpend := false
    tbFrac := nextFrac s.cfg.toParamValues s.tbFrac
    tbCount := nextCount s.cfg.toParamValues s.tbCount s.tbFrac }

/-- Tick service (R165). -/
def tickService (s : State) : State := ifEnabled (serviceEnabled s) s serviceUpdate

end Sys2Proof.Machine
end

