-- ==== Sys2Proof/Machine/Dispatch.lean ====
section
/-! DEFINITION. The meaning of every command, one arm per constructor. -/

namespace Sys2Proof.Machine

def exec (i : Instr) (s : State) : Host.Outcome State Fault Refusal :=
  match i with
  | .frameSet raw => Sys2Proof.Machine.execFrameSet raw s
  | .frameGet => Sys2Proof.Machine.execFrameGet s
  | .rowGet idx => Sys2Proof.Machine.execRowGet idx s
  | .refresh => Sys2Proof.Machine.execRefresh s
  | .statusGet => Sys2Proof.Machine.execStatusGet s
  | .tbInit => Sys2Proof.Machine.execTbInit s
  | .tbRead => Sys2Proof.Machine.execTbRead s
  | .tbReadPart k => Sys2Proof.Machine.execTbReadPart k s
  | .ieSet v => Sys2Proof.Machine.execIeSet v s

end Sys2Proof.Machine
end

