-- ==== Sys2Proof/Machine/Agents.lean ====
section
/-! DEFINITION. The steps of the agents (60_exceptions.md R250): a host command, a tick event, a tick service, the reset input,
and waiting; and runs of such steps. -/

namespace Sys2Proof.Machine

/-- The host issues a word: the block decodes it and performs the command, or raises Fault(ILLEGAL_COMMAND) and performs
nothing else (30_encoding.md R71, R76). -/
def commandStep (w : Word) (s : State) : Outcome :=
  match decode w with
  | .command i => exec i s
  | .illegal _ => accept s fun s => .next (raiseFault .illegalCommand s)

/-- One step of the agent that asks for it, indivisible (R250). -/
def perform (e : Event) (s : State) : Outcome :=
  match e with
  | .command w => commandStep w s
  | .tick => .next (tickEvent s)
  | .service => .next (tickService s)
  | .reset => .next (resetInput s)

/-- Whether the step may be taken in this state (R250). -/
def Event.enabled (e : Event) (s : State) : Bool :=
  match e with
  | .command _ => !s.fault
  | .tick => tickEnabled s
  | .service => serviceEnabled s
  | .reset => true

/-- No agent asks for a step: the block waits (70_reset_and_hazards.md R281); after a fault the lines still change freely
(93_implementation_defined.md S2; assumption logs 3 and 9). -/
def waitStep (s : State) : State := if s.fault then drawOutputs s else s

/-- The next scheduled step and the state that holds the rest of the schedule (assumption log 1). -/
def takeScheduled (s : State) : Option (Event × State) :=
  match s.schedule with
  | [] => none
  | e :: rest => some (e, { s with schedule := rest })

/-- The state in which the host issues the word next (assumption log 4). -/
def issueNext (w : Word) (s : State) : State := { s with schedule := .command w :: s.schedule }

/-- The state after a step of this agent; no step stops, so the last two cases do not occur. -/
def after (e : Event) (s : State) : State :=
  match perform e s with
  | .next t => t
  | .fault _ => s
  | .refused _ => s

/-- The state after a list of agent steps, first step first. -/
def runEvents : List Event → State → State
  | [], s => s
  | e :: es, s => runEvents es (after e s)

/-- The host issues a list of commands in order, with other agents' steps before each: gaps k before the first, gaps (k + 1) before
the second, and so on (20_memory.md R59). -/
def withGaps (gaps : Nat → List Event) (k : Nat) : List Instr → List Event
  | [] => []
  | i :: is => gaps k ++ .command (encode i) :: withGaps gaps (k + 1) is

end Sys2Proof.Machine
end

