-- ==== Sys2Proof/Machine/Step.lean ====
section
/-! DEFINITION. One step of the machine: the next scheduled step is performed, or the block waits. -/

namespace Sys2Proof.Machine

/-- One step in the total order of 20_memory.md R59. -/
def step (s : State) : Host.Outcome State Fault Refusal :=
  match takeScheduled s with
  | none => .next (waitStep s)
  | some (e, t) => perform e t

/-- The machine whose very next step runs this opcode-table word: it is the command the host issues next. -/
def State.withFetchWord (s : State) (nbits w : Nat) : State := issueNext (tableWord nbits w) s

end Sys2Proof.Machine
end

