-- ==== Sys2Proof/Machine/Collaborators.lean ====
section
/-! DEFINITION. The host's side as the spec fixes it (44_collaborators.md R221 to R223, 30_encoding.md R82): the animation table,
the driver's choice of frame, and the multi-part read of the counter. Host software: no rule of the block reads it (R220). -/

namespace Sys2Proof.Machine

/-- ANIM(i) = construct((1 << (14 - i)) | (1 << i)), "for i in 0..14" and no other index: the table has exactly 15 frames (R221). -/
def anim (p : ParamValues) (i : Fin 15) : FrameWord := construct p (1 <<< (14 - i.val) ||| 1 <<< i.val)

/-- (t / ANIM_PERIOD_MS) mod 15, the period an open argument (R223, D35); for a period of 0 the spec gives no index and a free value
stands for it (assumption log 22). -/
def animIndex (periodMs t : Nat) : Fin 15 :=
  if periodMs = 0 then Config.freeAnimIndex t else Fin.ofNat 15 (t / periodMs)

/-- The commands the driver loop issues once its TB_READ has returned t (R223). -/
def driverCommands (p : ParamValues) (periodMs t : Nat) : List Instr :=
  [.frameSet (anim p (animIndex periodMs t)).toNat, .refresh]

/-- One iteration of the driver loop (R223): TB_READ, then FRAME_SET and REFRESH with the frame the value it delivered selects, then the
busy wait. The other agents' steps before the k-th of these commands are gaps k, and gaps 3 are those of the busy wait, which itself is
no step. Where TB_READ faults, it delivers nothing and the host does not continue (60_exceptions.md R244). -/
def driverIteration (periodMs : Nat) (gaps : Nat → List Event) (s : State) : State :=
  let read := runEvents (withGaps gaps 0 [.tbRead]) s
  match read.result with
  | some t => runEvents (withGaps gaps 1 (driverCommands s.cfg.toParamValues periodMs t.toNat) ++ gaps 3) read
  | none => read

/-- The host's assembling of a multi-part read, sum over k of part_k << (PART_W*k), from part number k on
(42_timebase.md R168). -/
def assembleParts (p : ParamValues) (k : Nat) : List Word → Nat
  | [] => 0
  | v :: vs => v.toNat <<< (p.partW * k) + assembleParts p (k + 1) vs

/-- The commands of TB_READ_CS up to the last part, after its STATUS_GET (R82): IE_SET 0, then every part in order. -/
def criticalRead (p : ParamValues) : List Instr := .ieSet false :: (List.range p.nparts).map fun k => .tbReadPart k

/-- The bit the host keeps from STATUS_GET, result[4] (R82): the value of IE to restore. -/
def savedIe (status : Word) : Bool := status[4]

end Sys2Proof.Machine
end

