-- ==== Sys2Proof/Machine/Assembler.lean ====
section
/-! DEFINITION. The assembler's line syntax and the pseudo-instructions (30_encoding.md R81, R82; assumption log 21). Notation
only: no step of the machine uses it. -/

namespace Sys2Proof.Machine

/-- A source statement: a command of R75 or a pseudo-instruction of R82. -/
inductive AsmStatement where
  | command (i : Instr)
  | ieDisable
  | ieEnable
  | frameClear
  | frameDot (p : Nat)
  | tbReadCs
deriving DecidableEq, Repr

/-- Why a line is an assembly error (R81). -/
inductive AsmError where
  | unknownMnemonic
  | operandCount
  | badNumber
  | outOfRange
deriving DecidableEq, Repr

/-- What a line assembles to. -/
inductive Assembled where
  | words (ws : List Word)
  | error (why : AsmError)
deriving DecidableEq, Repr

/-- The expansions of R82. TB_READ_CS needs the parameters for its number of parts and the bit the host kept from its
STATUS_GET for its last command. -/
def AsmStatement.expand (p : ParamValues) (saved : Bool) : AsmStatement → List Instr
  | .command i => [i]
  | .ieDisable => [.ieSet false]
  | .ieEnable => [.ieSet true]
  | .frameClear => [.frameSet 0]
  | .frameDot d => [.frameSet (1 <<< (14 - d))]
  | .tbReadCs => .statusGet :: criticalRead p ++ [.ieSet saved]

/-- The operand range of R81 and R82; IE_SET's is settled when its operand is read. -/
def AsmStatement.inRange : AsmStatement → Bool
  | .command i => i.wf
  | .frameDot d => decide (d < 15)
  | .ieDisable => true
  | .ieEnable => true
  | .frameClear => true
  | .tbReadCs => true

/-- The value of a digit character. -/
def digitValue (c : Char) : Option Nat :=
  if '0' ≤ c ∧ c ≤ '9' then some (c.toNat - '0'.toNat)
  else if 'a' ≤ c ∧ c ≤ 'f' then some (c.toNat - 'a'.toNat + 10)
  else if 'A' ≤ c ∧ c ≤ 'F' then some (c.toNat - 'A'.toNat + 10)
  else none

/-- Digits of a base, `_` skipped as a separator, at least one digit (R81). -/
def parseDigits (base : Nat) (acc : Nat) (seen : Bool) : List Char → Option Nat
  | [] => if seen then some acc else none
  | c :: cs =>
    if c = '_' then parseDigits base acc seen cs
    else match digitValue c with
      | some d => if d < base then parseDigits base (acc * base + d) true cs else none
      | none => none

/-- "decimal, 0x hexadecimal or 0b binary" (R81). -/
def parseNumber : List Char → Option Nat
  | '0' :: 'x' :: cs => parseDigits 16 0 false cs
  | '0' :: 'b' :: cs => parseDigits 2 0 false cs
  | cs => parseDigits 10 0 false cs

/-- The space-separated tokens of a line, up to a `;` comment; cur is the token being read (R81). -/
def tokens (cur : List Char) : List Char → List (List Char)
  | [] => if cur.isEmpty then [] else [cur]
  | c :: cs =>
    if c = ';' then (if cur.isEmpty then [] else [cur])
    else if c = ' ' then (if cur.isEmpty then tokens [] cs else cur :: tokens [] cs)
    else tokens (cur ++ [c]) cs

/-- The mnemonics that take no operand. -/
def plainMnemonics : List (String × AsmStatement) :=
  [("FRAME_GET", .command .frameGet), ("REFRESH", .command .refresh), ("STATUS_GET", .command .statusGet),
   ("TB_INIT", .command .tbInit), ("TB_READ", .command .tbRead), ("IE_DISABLE", .ieDisable), ("IE_ENABLE", .ieEnable),
   ("FRAME_CLEAR", .frameClear), ("TB_READ_CS", .tbReadCs)]

/-- The statement of a mnemonic that takes an operand: nothing if there is no such mnemonic, and within it nothing for a
number out of range. -/
def operandStatement (m : List Char) (x : Nat) : Option (Option AsmStatement) :=
  let checked (a : AsmStatement) : Option AsmStatement := if a.inRange then some a else none
  if m = "FRAME_SET".toList then some (checked (.command (.frameSet x)))
  else if m = "ROW_GET".toList then some (checked (.command (.rowGet x)))
  else if m = "TB_READ_PART".toList then some (checked (.command (.tbReadPart x)))
  else if m = "IE_SET".toList then some (if x < 2 then some (.command (.ieSet (x == 1))) else none)
  else if m = "FRAME_DOT".toList then some (checked (.frameDot x))
  else none

/-- The plain statement of a mnemonic, if it has one. -/
def plainStatement (m : List Char) : Option AsmStatement :=
  (plainMnemonics.find? fun e => e.1.toList == m).map fun e => e.2

/-- One line to its command words; an empty or comment line has none (R81). -/
def assembleLine (p : ParamValues) (saved : Bool) (line : String) : Assembled :=
  match tokens [] line.toList with
  | [] => .words []
  | [m] =>
    match plainStatement m with
    | some a => .words ((a.expand p saved).map encode)
    | none => .error (if (operandStatement m 0).isSome then .operandCount else .unknownMnemonic)
  | [m, n] =>
    match operandStatement m 0, parseNumber n with
    | none, _ => .error (if (plainStatement m).isSome then .operandCount else .unknownMnemonic)
    | some _, none => .error .badNumber
    | some _, some x =>
      match operandStatement m x with
      | some (some a) => .words ((a.expand p saved).map encode)
      | _ => .error .outOfRange
  | m :: _ =>
    .error (if (plainStatement m).isSome || (operandStatement m 0).isSome then .operandCount else .unknownMnemonic)

end Sys2Proof.Machine
end

