-- ==== Sys2Proof/Safety.lean ====
section
/-! DEFINITION. What claims are stated with: the machine's invariant, what a run of agent steps returns and counts, and
weak fairness. -/

namespace Sys2Proof.Machine

/-- A snapshot that obeys the display rules at every instant (10_state.md R31, 41_display.md R133): at most one row is active,
and no column is active while no row is. -/
structure Snapshot.Safe (p : Snapshot) : Prop where
  atMostOneRow : ∀ i j : Fin 3, p.rows[i] = true → p.rows[j] = true → i = j
  noColumnAlone : (∀ i : Fin 3, p.rows[i] = false) → ∀ c : Fin 5, p.cols[c] = false

/-- The invariant of the block: what the spec says holds "at every instant". -/
structure Inv (s : State) : Prop where
  /-- FRAME[FRAME_W-1:15] is 0 (R24). -/
  frameSpareClear : ∀ b, 15 ≤ b → s.frame.getLsbD b = false
  /-- TB_COUNT is TB_WIDTH bits wide (R32). -/
  countFits : s.tbCount.toNat < 2 ^ s.cfg.tbWidth
  /-- TB_FRAC is in 0..TB_FRAC_MAX-1 once TB_INIT has run (R33). -/
  fracBelowMax : s.tbRun = true → s.tbFrac < s.cfg.tbFracMax
  /-- A tick is pending only after TB_INIT (R161, R163). -/
  pendingOnlyWhenRunning : s.tpend = true → s.tbRun = true
  /-- A faulted block has IE = 0 (R241, R247). -/
  faultMasksTicks : s.fault = true → s.ie = false
  /-- FCODE is 0 exactly while FAULT = 0 (R37). -/
  codeTellsFault : s.fault = false ↔ s.fcode = .none
  /-- The lines obey the display rules while FAULT = 0 (R31). -/
  outputsSafe : s.fault = false → Snapshot.Safe ⟨s.rowAct, s.colAct⟩
  /-- Every snapshot of the output trace does (R133, R141). -/
  traceSafe : ∀ p ∈ s.trace, Snapshot.Safe p

/-- t is s after "raise Fault(code)" (R241): FAULT, FCODE and IE as it says, nothing returned, every other element as in s; the
output lines, and the count of free values drawn, are whatever t has (R243). -/
def EntersFault (code : FaultCode) (s t : State) : Prop :=
  t = { s with fault := true, fcode := code, ie := false, result := none,
               rowAct := t.rowAct, colAct := t.colAct, draws := t.draws }

/-- t is s after a step a faulted block does not accept (R244): nothing returned, every element as in s but the output lines,
and the count of free values drawn, which are whatever t has (R243, S2). -/
def StaysHalted (s t : State) : Prop :=
  t = { s with result := none, rowAct := t.rowAct, colAct := t.colAct, draws := t.draws }

/-- The values delivered to the host along a list of steps, in order (R72). -/
def returned : List Event → State → List Word
  | [], _ => []
  | e :: es, s => (after e s).result.toList ++ returned es (after e s)

/-- A service step that is enabled, so that it is taken (R165). -/
def servesNow (e : Event) (s : State) : Bool := e == .service && serviceEnabled s

/-- How many tick services a list of steps takes (R173). -/
def servicesTaken : List Event → State → Nat
  | [], _ => 0
  | e :: es, s => (if servesNow e s then 1 else 0) + servicesTaken es (after e s)

/-- The sum of TB_INC + carry over the services a list of steps takes (R169). -/
def servedGain : List Event → State → Nat
  | [], _ => 0
  | e :: es, s => (if servesNow e s then tickGain s.cfg.toParamValues s.tbFrac else 0) + servedGain es (after e s)

/-- How many REFRESH commands a list of steps holds. -/
def refreshes : List Event → Nat
  | [] => 0
  | e :: es => (if e == .command (encode .refresh) then 1 else 0) + refreshes es

/-- The tick source's two steps, as opposed to a host command or reset. -/
def Event.ofTickSource (e : Event) : Bool := e == .tick || e == .service

/-- An infinite run: step n is a step of agent sched n and leads from state n to state n+1 (60_exceptions.md R250). -/
def IsRun (sched : Nat → Event) (st : Nat → State) : Prop := ∀ n, perform (sched n) (st n) = .next (st (n + 1))

/-- "a step that stays enabled is eventually taken" (R250; assumption log 19). -/
def WeaklyFair (e : Event) (sched : Nat → Event) (st : Nat → State) : Prop :=
  ∀ n, (∀ m, n ≤ m → e.enabled (st m) = true) → ∃ m, n ≤ m ∧ sched m = e

end Sys2Proof.Machine
end

