-- ==== Sys2Proof/Certificates/Slice0/Obligations.lean ====
section
/-! DEFINITION. The statements for the provers, in the order of the spec's files. A hypothesis s.fault = false is R244's "the block
accepts no command while FAULT = 1"; the faulted case is FaultedBlockAcceptsNothing. -/

open Sys2Proof Sys2Proof.Machine

/-! ## Encoding (30_encoding.md) -/

/-- Decoding the encoding of a well-formed command gives the command back, with its operand at every value its field admits
(R70, R74, R75). -/
def Obligations.DecodeOfEncodeIsIdentity : Prop :=
  ∀ i : Instr, i.wf = true → decode (encode i) = .command i

/-- A word has at most one meaning: whatever decodes is well formed and encodes to the very same word (R76, R79). -/
def Obligations.EncodeOfDecodeIsTheWord : Prop :=
  ∀ (w : Word) (i : Instr), decode w = .command i → i.wf = true ∧ encode i = w

/-- A word encodes the command of a row exactly when CW & mask = match, its operand is the bits the mask leaves out, and no word matches
two rows (R75, whose last sentence the spec marks derived). -/
def Obligations.WordIsACommandExactlyWhenARowMatches : Prop :=
  (∀ (w : Word), ∀ r ∈ opcodeMap, r.matches w = true ↔
    ∃ i, decode w = .command i ∧ i.opcode = r.opcode ∧ i.data = (w &&& ~~~r.mask).toNat) ∧
  (∀ (w : Word), ∀ r₁ ∈ opcodeMap, ∀ r₂ ∈ opcodeMap, r₁.matches w = true → r₂.matches w = true → r₁ = r₂)

/-- R76: a word that matches no row raises Fault(ILLEGAL_COMMAND) and does nothing else. -/
def Obligations.WordThatMatchesNoRowFaults : Prop :=
  ∀ (w : Word) (s : State), s.fault = false → (∀ r ∈ opcodeMap, r.matches w = false) →
    ∃ t, perform (.command w) s = .next t ∧ EntersFault .illegalCommand s t

/-- Words written out from R75 and the examples of 40_frame.md to 43_interrupt_control.md decode to the commands they stand for,
one of each row; and three illegal words of R76 (the all-zero word, RSV = 1, a "must be 0" bit of ROW_GET) decode to no command. The
three names under which they are rejected are the model's choice (assumption log 18); R76 has the one cause ILLEGAL_COMMAND. -/
def Obligations.WordsOfTheOpcodeMapDecode : Prop :=
  decode 0x0100C000#32 = .command (.frameSet 0xC000) ∧ decode 0x02000000#32 = .command .frameGet ∧
  decode 0x03000002#32 = .command (.rowGet 2) ∧ decode 0x04000000#32 = .command .refresh ∧
  decode 0x05000000#32 = .command .statusGet ∧ decode 0x10000000#32 = .command .tbInit ∧
  decode 0x11000000#32 = .command .tbRead ∧ decode 0x12000001#32 = .command (.tbReadPart 1) ∧
  decode 0x20000001#32 = .command (.ieSet true) ∧ decode 0x20000000#32 = .command (.ieSet false) ∧
  decode 0#32 = .illegal .opcode ∧ decode 0x01010000#32 = .illegal .reserved ∧ decode 0x03000004#32 = .illegal .operand

/-- A step runs the decoded command: it is exec of the command the next scheduled word decodes to, at the state whose schedule is
the rest; a tick, service or reset that is next is performed the same way, and with nothing scheduled a running block stays as it
is (R71, R250; the schedule is the model's own, assumption logs 1 and 3). -/
def Obligations.StepTakesTheNextScheduledStep : Prop :=
  (∀ (s : State) (w : Word) (i : Instr) (rest : List Event), s.schedule = .command w :: rest → decode w = .command i →
    step s = exec i { s with schedule := rest }) ∧
  (∀ (s : State) (e : Event) (rest : List Event), s.schedule = e :: rest → step s = perform e { s with schedule := rest }) ∧
  (∀ s : State, s.schedule = [] → s.fault = false → step s = .next s)

/-- As many steps of the machine as there are scheduled steps lead to the state after that list of agent steps, with the rest of
the schedule left: what is stated of runEvents is stated of runs of step (R59, R250). The schedule, that its head is taken first, and that
a reset keeps it are the model's choice (assumption logs 1 and 24). -/
def Obligations.RunOfStepsIsRunOfTheSchedule : Prop :=
  ∀ (es rest : List Event) (s : State), s.schedule = es ++ rest →
    Host.Core.run Sys2Proof.core es.length s = .next { runEvents es s with schedule := rest }

/-- R82: the encodings it lists for the pseudo-instructions; TB_READ_CS is STATUS_GET, IE_SET 0, every TB_READ_PART from 0 to NPARTS-1
in order and IE_SET of the bit the host kept, with its seven words for the default parameters; and FRAME_DOT p lights exactly dot p of
the frame (its expansion is the one command FRAME_SET (1 << (14 - p))). -/
def Obligations.PseudoInstructionsExpand : Prop :=
  (∀ (p : ParamValues) (b : Bool),
    (AsmStatement.ieDisable.expand p b).map encode = [0x20000000#32] ∧
    (AsmStatement.ieEnable.expand p b).map encode = [0x20000001#32] ∧
    (AsmStatement.frameClear.expand p b).map encode = [0x01000000#32] ∧
    ((AsmStatement.frameDot 0).expand p b).map encode = [0x01004000#32] ∧
    AsmStatement.tbReadCs.expand p b =
      [.statusGet, .ieSet false] ++ (List.range (p.tbWidth / p.partW)).map Instr.tbReadPart ++ [.ieSet b]) ∧
  (∀ b : Bool, (AsmStatement.tbReadCs.expand Params.default.toParamValues b).map encode =
    [0x05000000#32, 0x20000000#32, 0x12000000#32, 0x12000001#32, 0x12000002#32, 0x12000003#32,
     if b then 0x20000001#32 else 0x20000000#32]) ∧
  (∀ (p : ParamValues) (b : Bool) (d : Nat) (s : State), d < 15 → s.fault = false →
    ∃ (i : Instr) (t : State), (AsmStatement.frameDot d).expand p b = [i] ∧ i.wf = true ∧ exec i s = .next t ∧
      ∀ (r : Fin 3) (c : Fin 5), (row t.frame r)[c] = decide (5 * r.val + c.val = d))

/-! ## Frame store (40_frame.md) -/

/-- R100: construct keeps bits 0 to 14 of a raw value of any width and clears every bit from 15 up, for every FRAME_W that R7
allows. -/
def Obligations.ConstructKeepsExactlyTheDotBits : Prop :=
  ∀ (p : Params) (raw b : Nat), (construct p.toParamValues raw).getLsbD b = (decide (b < 15) && raw.testBit b)

/-- R102: column c of row r is bit (HEIGHT-1-r)*WIDTH + (WIDTH-1-c) of the frame, which is bit WIDTH-1-c of the chunk. -/
def Obligations.RowIsColumnZeroFirst : Prop :=
  ∀ (f : FrameWord) (r : Fin 3) (c : Fin 5),
    (row f r)[c] = f.getLsbD ((2 - r.val) * 5 + (4 - c.val)) ∧ (row f r)[c] = (chunk f r).getLsbD (4 - c.val)

/-- The frame with only dot k lit reads back as that dot and no other (R104, a round trip the spec marks derived). -/
def Obligations.SingleDotRoundTrip : Prop :=
  ∀ (p : Params) (k : Fin 15) (r : Fin 3) (c : Fin 5),
    (row (construct p.toParamValues (1 <<< (14 - k.val))) r)[c] = decide (r.val = k.val / 5 ∧ c.val = k.val % 5)

/-- R106: FRAME_SET completes with FRAME = raw & 0x7FFF, nothing returned and every other element of the state unchanged. -/
def Obligations.FrameSetStoresTheMaskedFrame : Prop :=
  ∀ (raw : Nat) (s : State), s.fault = false →
    exec (.frameSet raw) s = .next { s with frame := BitVec.ofNat 32 raw &&& 0x7FFF#32, result := none }

/-- R107: FRAME_GET completes with zext_32(FRAME) returned and no state changed; with the spare bits of FRAME clear, which holds at
every instant (R24, EveryStepKeepsTheInvariant), bits 31..15 of the result are 0. -/
def Obligations.FrameGetReturnsTheFrame : Prop :=
  ∀ s : State, s.fault = false →
    exec .frameGet s = .next { s with result := some (BitVec.ofNat 32 s.frame.toNat) } ∧
    (Inv s → (BitVec.ofNat 32 s.frame.toNat).toNat < 2 ^ 15)

/-- R108: ROW_GET below HEIGHT completes with the row's chunk returned and no state changed; from HEIGHT on it raises
Fault(ROW_INDEX). -/
def Obligations.RowGetReturnsTheChunkOrFaults : Prop :=
  ∀ (idx : Nat) (s : State), s.fault = false →
    (idx < 3 → exec (.rowGet idx) s =
      .next { s with result := some (BitVec.ofNat 32 (s.frame.toNat / 2 ^ ((2 - idx) * 5) % 32)) }) ∧
    (3 ≤ idx → ∃ t, exec (.rowGet idx) s = .next t ∧ EntersFault .rowIndex s t)

/-- R65: of two FRAME_SET with no REFRESH between, the first leaves no trace; neither shows on the lines or in the output trace, until
the REFRESH lights the row at the cursor with the columns of the second frame. -/
def Obligations.LastFrameSetWinsAtTheNextRefresh : Prop :=
  ∀ (a b : Nat) (s : State), a < 2 ^ 16 → b < 2 ^ 16 → s.fault = false →
    (let first := encode (.frameSet a)
     let second := encode (.frameSet b)
     let u := runEvents [.command first, .command second] s
     let v := runEvents [.command first, .command second, .command (encode .refresh)] s
     let shown := construct s.cfg.toParamValues b
     u = runEvents [.command second] s ∧ u.frame = shown ∧ u.rowAct = s.rowAct ∧ u.colAct = s.colAct ∧ u.trace = s.trace ∧
     v.rowAct = onehot s.cursor ∧ v.colAct = row shown s.cursor ∧
     v.trace = s.trace ++ [Snapshot.allOff, ⟨onehot s.cursor, Snapshot.allOff.cols⟩, ⟨onehot s.cursor, row shown s.cursor⟩])

/-! ## Display (41_display.md, 10_state.md) -/

/-- R29: the level of each line, and a dot is lit exactly when both its lines are driven to their active level. -/
def Obligations.DotIsLitWhenBothLinesAreAtTheirActiveLevel : Prop :=
  ∀ (s : State) (r : Fin 3) (c : Fin 5),
    rowPin s r = (if s.rowAct[r] = true then s.cfg.rowActiveLevel else !s.cfg.rowActiveLevel) ∧
    colPin s c = (if s.colAct[c] = true then s.cfg.colActiveLevel else !s.cfg.colActiveLevel) ∧
    ((rowPin s r = s.cfg.rowActiveLevel ∧ colPin s c = s.cfg.colActiveLevel) ↔ (s.rowAct[r] = true ∧ s.colAct[c] = true))

/-- R132: REFRESH completes with three snapshots emitted in order (all off; the row at the cursor; that row with its lit columns),
the lines left at the third, the cursor advanced modulo HEIGHT, nothing returned and nothing else changed. -/
def Obligations.RefreshEmitsThreeSnapshotsAndAdvances : Prop :=
  ∀ s : State, s.fault = false →
    (let r := s.cursor.val
     let ch := s.frame.toNat / 2 ^ ((2 - r) * 5) % 32
     let off : Vector Bool 5 := #v[false, false, false, false, false]
     let rows : Vector Bool 3 := #v[r == 0, r == 1, r == 2]
     let cols : Vector Bool 5 := #v[ch.testBit 4, ch.testBit 3, ch.testBit 2, ch.testBit 1, ch.testBit 0]
     exec .refresh s = .next { s with
       rowAct := rows
       colAct := cols
       trace := s.trace ++ [⟨#v[false, false, false], off⟩, ⟨rows, off⟩, ⟨rows, cols⟩]
       cursor := ⟨(r + 1) % 3, Nat.mod_lt _ (by decide)⟩
       result := none })

/-- After a refresh step exactly the previous cursor's row is active, the cursor is the next one modulo HEIGHT, and the lit dots are
exactly the frame's dots of that row (R134, R135, which the spec marks derived). -/
def Obligations.RefreshLightsExactlyTheCursorRow : Prop :=
  ∀ s : State, s.fault = false → ∃ t, exec .refresh s = .next t ∧
    (∀ i : Fin 3, t.rowAct[i] = decide (i = s.cursor)) ∧ t.cursor.val = (s.cursor.val + 1) % 3 ∧
    (∀ c : Fin 5, t.colAct[c] = (row s.frame s.cursor)[c]) ∧
    (∀ (r : Fin 3) (c : Fin 5), (t.rowAct[r] && t.colAct[c]) =
      (decide (r = s.cursor) && s.frame.getLsbD (14 - (5 * r.val + c.val))))

/-- Scan order (R136, which the spec marks derived), for any number: n consecutive REFRESH visit the rows in increasing cyclic order
from the cursor, each visit the three snapshots of that row with the frame's columns, and the cursor ends n rows on; with n = HEIGHT
every row is visited once. -/
def Obligations.ConsecutiveRefreshesVisitTheRowsInOrder : Prop :=
  ∀ (n : Nat) (s : State), s.fault = false →
    (let t := runEvents (List.replicate n (.command (encode .refresh))) s
     t.cursor.val = (s.cursor.val + n) % 3 ∧ t.frame = s.frame ∧ t.fault = false ∧
     t.trace = s.trace ++ (List.range n).flatMap fun j =>
       let r : Fin 3 := Fin.ofNat 3 (s.cursor.val + j)
       [Snapshot.allOff, ⟨onehot r, Snapshot.allOff.cols⟩, ⟨onehot r, row s.frame r⟩])

/-- The scan order under every schedule: whatever commands, ticks and services a list of steps holds, if it holds no reset and ends
without a fault the cursor has moved by the number of its REFRESH commands, so no row is skipped or repeated (R25, R136, R138). -/
def Obligations.CursorCountsRefreshesUnderAnySchedule : Prop :=
  ∀ (es : List Event) (s : State), .reset ∉ es → (runEvents es s).fault = false →
    (runEvents es s).cursor.val = (s.cursor.val + refreshes es) % 3

/-- REFRESH is the only command that moves the cursor or the lines, and tick and service leave them too, as long as no fault is
entered (R138, R60). -/
def Obligations.OnlyRefreshMovesTheDisplay : Prop :=
  ∀ (e : Event) (s : State), (∀ w, e = .command w → decode w ≠ .command .refresh) → e ≠ .reset →
    ∃ t, perform e s = .next t ∧ (t.fault = false →
      t.cursor = s.cursor ∧ t.rowAct = s.rowAct ∧ t.colAct = s.colAct ∧ t.trace = s.trace)

/-- R140: STATUS_GET completes with no state changed and returns IE, TPEND, TB_RUN and CURSOR in bits 4, 3, 2 and 1..0, the rest 0. -/
def Obligations.StatusGetReturnsTheStatusWord : Prop :=
  ∀ s : State, s.fault = false → exec .statusGet s = .next
    { s with result := some (BitVec.ofNat 32 (s.cursor.val + 4 * s.tbRun.toNat + 8 * s.tpend.toNat + 16 * s.ie.toNat)) }

/-! ## Timebase (42_timebase.md) -/

/-- R161: the first TB_INIT completes with TB_COUNT, TB_FRAC and TPEND cleared and TB_RUN set, nothing returned and nothing else
changed (IE too); while TB_RUN = 1 it raises Fault(REINIT). -/
def Obligations.TbInitStartsTheTimebaseOnce : Prop :=
  ∀ s : State, s.fault = false →
    (s.tbRun = false → exec .tbInit s =
      .next { s with tbCount := 0, tbFrac := 0, tpend := false, tbRun := true, result := none }) ∧
    (s.tbRun = true → ∃ t, exec .tbInit s = .next t ∧ EntersFault .reinit s t)

/-- R163, R164: an enabled tick event sets TPEND and changes nothing else, so a tick that finds one pending is lost. -/
def Obligations.EnabledTickSetsPending : Prop :=
  ∀ s : State, s.fault = false → s.tbRun = true → perform .tick s = .next { s with tpend := true, result := none }

/-- R165: an enabled service clears TPEND, adds TB_FRAC_INC to the accumulator with its carry and TB_INC + carry to the counter modulo
2^TB_WIDTH, and touches nothing else, IE, the frame and the outputs included (R166); the accumulator stays below TB_FRAC_MAX. -/
def Obligations.EnabledServiceUpdatesTheCounter : Prop :=
  ∀ s : State, s.fault = false → s.tpend = true → s.ie = true →
    (let sum := s.tbFrac + s.cfg.tbFracInc
     let carry := if s.cfg.tbFracMax ≤ sum then 1 else 0
     perform .service s = .next { s with
       tpend := false
       tbFrac := sum - carry * s.cfg.tbFracMax
       tbCount := BitVec.ofNat 32 ((s.tbCount.toNat + s.cfg.tbInc + carry) % 2 ^ s.cfg.tbWidth)
       result := none } ∧
     (s.tbFrac < s.cfg.tbFracMax → sum - carry * s.cfg.tbFracMax < s.cfg.tbFracMax))

/-- A scheduled tick or service that is not enabled while FAULT = 0 (TB_RUN = 0; TPEND = 0 or IE = 0) does not happen: the step
changes nothing. That it is skipped is the model's choice, assumption log 2; when it is enabled is R163's and R165's. -/
def Obligations.TickSourceStepThatIsNotEnabledIsSkipped : Prop :=
  ∀ (e : Event) (s : State), s.fault = false → e.ofTickSource = true → e.enabled s = false →
    perform e s = .next { s with result := none } ∧
    (e = .tick → s.tbRun = false) ∧ (e = .service → s.tpend = false ∨ s.ie = false)

/-- R167: TB_READ after TB_INIT completes with the whole counter returned and nothing changed, IE restored to its value whatever it
was; before TB_INIT it raises Fault(READ_BEFORE_INIT). -/
def Obligations.TbReadReturnsTheWholeCounter : Prop :=
  ∀ s : State, s.fault = false →
    (s.tbRun = true → exec .tbRead s = .next { s with result := some s.tbCount }) ∧
    (s.tbRun = false → ∃ t, exec .tbRead s = .next t ∧ EntersFault .readBeforeInit s t)

/-- R170: TB_READ_PART k returns part k of the counter and changes nothing; k >= NPARTS raises Fault(ILLEGAL_COMMAND), checked before
TB_RUN, and a read before TB_INIT raises Fault(READ_BEFORE_INIT). -/
def Obligations.TbReadPartReturnsOnePart : Prop :=
  ∀ (k : Nat) (s : State), s.fault = false →
    (k < s.cfg.tbWidth / s.cfg.partW → s.tbRun = true → exec (.tbReadPart k) s = .next
      { s with result := some (BitVec.ofNat 32 (s.tbCount.toNat / 2 ^ (s.cfg.partW * k) % 2 ^ s.cfg.partW)) }) ∧
    (s.cfg.tbWidth / s.cfg.partW ≤ k → ∃ t, exec (.tbReadPart k) s = .next t ∧ EntersFault .illegalCommand s t) ∧
    (k < s.cfg.tbWidth / s.cfg.partW → s.tbRun = false →
      ∃ t, exec (.tbReadPart k) s = .next t ∧ EntersFault .readBeforeInit s t)

/-- The long-run rate (R173, which the spec marks derived): after TB_INIT and any run of steps without a reset, with n services
taken in it, TB_COUNT is n*TB_INC + floor(n*TB_FRAC_INC / TB_FRAC_MAX) modulo 2^TB_WIDTH and TB_FRAC is n*TB_FRAC_INC modulo
TB_FRAC_MAX, for every set of parameters. -/
def Obligations.LongRunCountOfServicedTicks : Prop :=
  ∀ (es : List Event) (s : State), s.fault = false → s.tbRun = false → .reset ∉ es →
    (let s0 := after (.command (encode .tbInit)) s
     let t := runEvents es s0
     let n := servicesTaken es s0
     t.tbCount.toNat = (n * s.cfg.tbInc + n * s.cfg.tbFracInc / s.cfg.tbFracMax) % 2 ^ s.cfg.tbWidth ∧
     t.tbFrac = n * s.cfg.tbFracInc % s.cfg.tbFracMax)

/-- Monotonicity (R169, which the spec marks derived): of two TB_READ with no reset between, the later returns the earlier's value
plus the sum of TB_INC + carry over the services between, modulo 2^TB_WIDTH, so it is not smaller unless the sum reached 2^TB_WIDTH. -/
def Obligations.LaterReadIsEarlierPlusServedGain : Prop :=
  ∀ (es : List Event) (s : State), s.fault = false → s.tbRun = true → s.tbCount.toNat < 2 ^ s.cfg.tbWidth → .reset ∉ es →
    (runEvents es (after (.command (encode .tbRead)) s)).fault = false →
    (let s1 := after (.command (encode .tbRead)) s
     let s2 := after (.command (encode .tbRead)) (runEvents es s1)
     let d := servedGain es s1
     ∃ v1 v2 : Word, s1.result = some v1 ∧ s2.result = some v2 ∧ v2.toNat = (v1.toNat + d) % 2 ^ s.cfg.tbWidth ∧
       (v1.toNat + d < 2 ^ s.cfg.tbWidth → v1.toNat ≤ v2.toNat))

/-- R174: a service that finds the counter at its maximum wraps it to the low bits of the sum (with TB_INC + carry = 0 the sum is the
maximum itself) and faults nothing. -/
def Obligations.CounterWrapsWithoutAFault : Prop :=
  ∀ s : State, s.fault = false → s.tpend = true → s.ie = true → s.tbCount.toNat = 2 ^ s.cfg.tbWidth - 1 →
    (let gain := s.cfg.tbInc + if s.cfg.tbFracMax ≤ s.tbFrac + s.cfg.tbFracInc then 1 else 0
     ∃ t, perform .service s = .next t ∧ t.fault = false ∧
       t.tbCount.toNat = if gain = 0 then 2 ^ s.cfg.tbWidth - 1 else gain - 1)

/-- The parts of a counter value, read in order and assembled, are the value (R53, R168). -/
def Obligations.PartsAssembleToTheCounter : Prop :=
  ∀ (p : Params) (count : Word), count.toNat < 2 ^ p.tbWidth →
    assembleParts p.toParamValues 0 ((List.range p.nparts).map (countPart p.toParamValues count)) = count.toNat

/-- The torn read of R171's example (a rule the spec marks derived): parts read on both sides of one service assemble to 0x1FF,
while the counter was 0xFF before and 0x100 after. -/
def Obligations.UnprotectedPartReadsCanTear : Prop :=
  ∃ s : State, s.fault = false ∧ s.tbRun = true ∧ s.ie = true ∧ s.tbCount = 0xFF ∧
    (let es := [.command (encode (.tbReadPart 0)), .tick, .service, .command (encode (.tbReadPart 1)),
       .command (encode (.tbReadPart 2)), .command (encode (.tbReadPart 3))]
     assembleParts s.cfg.toParamValues 0 (returned es s) = 0x1FF ∧ (runEvents es s).tbCount = 0x100 ∧
     (runEvents es s).fault = false)

/-- In an infinite run that is weakly fair to the tick event and to the tick service, a running block with ticks enabled that never
faults has its counter served again and again (R163, R165, R250; the fairness predicate is assumption log 19's). -/
def Obligations.FairTicksAreServedAgainAndAgain : Prop :=
  ∀ (sched : Nat → Event) (st : Nat → State), IsRun sched st → WeaklyFair .tick sched st → WeaklyFair .service sched st →
    ∀ n, (∀ m, n ≤ m → (st m).tbRun = true ∧ (st m).ie = true ∧ (st m).fault = false) →
      ∃ m, n ≤ m ∧ servesNow (sched m) (st m) = true

/-! ## Interrupt enable and critical sections (43_interrupt_control.md) -/

/-- R201: IE_SET v completes with IE = v, nothing returned and nothing else changed. -/
def Obligations.IeSetWritesTheEnable : Prop :=
  ∀ (v : Bool) (s : State), s.fault = false → exec (.ieSet v) s = .next { s with ie := v, result := none }

/-- A critical section (R202, which the spec marks derived): from IE = 0 on, as long as no IE_SET 1 and no reset is among the steps,
no service is taken; so a running counter keeps its value whatever ticks occur. -/
def Obligations.CriticalSectionHoldsTheCounter : Prop :=
  ∀ (es : List Event) (s : State), s.ie = false → .reset ∉ es → .command (encode (.ieSet true)) ∉ es →
    servicesTaken es s = 0 ∧ (s.tbRun = true → (runEvents es s).tbCount = s.tbCount)

/-- R168 and R203, of which the spec marks R168 derived: the whole expansion of TB_READ_CS, with any ticks and services of the tick source
before each of its commands. Its parts assemble to the value TB_READ would have returned when its IE_SET 0 comes, the counter keeps that
value to its end, and its last command restores IE to the bit the host kept from STATUS_GET. -/
def Obligations.CriticalReadEqualsTbRead : Prop :=
  ∀ (s : State) (gaps : Nat → List Event), s.fault = false → s.tbRun = true → s.tbCount.toNat < 2 ^ s.cfg.tbWidth →
    (∀ k, ∀ e ∈ gaps k, e.ofTickSource = true) →
    ∃ status : Word, (runEvents (withGaps gaps 0 [.statusGet]) s).result = some status ∧
      (let es := withGaps gaps 0 (AsmStatement.tbReadCs.expand s.cfg.toParamValues (savedIe status))
       let u := runEvents (withGaps gaps 0 [.statusGet] ++ gaps 1) s
       let t := runEvents es s
       exec .tbRead u =
         .next { u with result := some (BitVec.ofNat 32 (assembleParts s.cfg.toParamValues 0 (returned es s).tail)) } ∧
       (returned es s).head? = some status ∧ t.tbCount = u.tbCount ∧ t.ie = s.ie ∧ t.fault = false)

/-- R204 and R164: ticks held off by IE = 0 coalesce: after one or more of them, IE_SET 1 and two tries at a service, exactly one
service has been taken. -/
def Obligations.HeldOffTicksCoalesceIntoOne : Prop :=
  ∀ (n : Nat) (s : State), s.fault = false → s.tbRun = true → s.ie = false → 1 ≤ n →
    runEvents (List.replicate n .tick ++ [.command (encode (.ieSet true)), .service, .service]) s =
      { s with ie := true, tpend := false, result := none, tbFrac := nextFrac s.cfg.toParamValues s.tbFrac,
               tbCount := nextCount s.cfg.toParamValues s.tbCount s.tbFrac }

/-! ## Faults and agents (60_exceptions.md) -/

/-- raise Fault(code) sets FAULT, FCODE and IE as R241 says, returns nothing and changes no other element but the output lines, which are
unspecified after it (R39, R243; that R241's "no other state changes" leaves them out is the model's reading, assumption log 9). -/
def Obligations.RaiseFaultEntersTheFailStop : Prop :=
  ∀ (code : FaultCode) (s : State), EntersFault code s (raiseFault code s)

/-- The causes of faults and their order within one command, whole: which commands fault, when, and with which number of R242 in
FCODE (R242, R245); and an illegal word records 1. -/
def Obligations.CommandsFaultExactlyForTheirCauses : Prop :=
  (∀ (i : Instr) (s : State), s.fault = false → s.fcode = .none → ∃ t, exec i s = .next t ∧
    t.fcode.number = (match i with
      | .rowGet idx => if 3 ≤ idx then 2 else 0
      | .tbInit => if s.tbRun = true then 4 else 0
      | .tbRead => if s.tbRun = true then 0 else 3
      | .tbReadPart k => if s.cfg.tbWidth / s.cfg.partW ≤ k then 1 else if s.tbRun = true then 0 else 3
      | .frameSet _ => 0
      | .frameGet => 0
      | .refresh => 0
      | .statusGet => 0
      | .ieSet _ => 0) ∧
    (t.fault = true ↔ t.fcode.number ≠ 0)) ∧
  (∀ (w : Word) (s : State), s.fault = false → (∀ i, decode w ≠ .command i) →
    ∃ t, perform (.command w) s = .next t ∧ t.fcode.number = 1 ∧ t.fault = true) ∧
  (∀ c : FaultCode, (c.number = 0 ↔ c = .none) ∧ (c.number = 1 ↔ c = .illegalCommand) ∧ (c.number = 2 ↔ c = .rowIndex) ∧
    (c.number = 3 ↔ c = .readBeforeInit) ∧ (c.number = 4 ↔ c = .reinit))

/-- R244: while FAULT = 1 no command is accepted, no tick occurs and no service runs: nothing changes but the output lines, which are
unspecified. -/
def Obligations.FaultedBlockAcceptsNothing : Prop :=
  ∀ (e : Event) (s : State), s.fault = true → e ≠ .reset → ∃ t, perform e s = .next t ∧ StaysHalted s t

/-- Only reset leaves the fail-stop: over any steps without one the fault, its code and every element but the lines stay; a reset
ends it (R244, R249, R280). -/
def Obligations.OnlyResetEndsAFault : Prop :=
  ∀ (es : List Event) (s : State), s.fault = true → .reset ∉ es →
    (let t := runEvents es s
     t.fault = true ∧ t.fcode = s.fcode ∧ t.ie = s.ie ∧ t.frame = s.frame ∧ t.cursor = s.cursor ∧ t.tbCount = s.tbCount ∧
     t.tbFrac = s.tbFrac ∧ t.tbRun = s.tbRun ∧ t.tpend = s.tpend ∧ t.trace = s.trace ∧ (after .reset t).fault = false)

/-- Every step of the machine answers a next state: it never stops, a fault is a state (R240, R241; assumption log 15). -/
def Obligations.StepAlwaysAnswersANextState : Prop :=
  ∀ s : State, ∃ t, step s = .next t

/-- Which command may change which element, in every state (the W entries of R39): FRAME by FRAME_SET, CURSOR by REFRESH, the timebase
by TB_INIT, IE by IE_SET or by a fault, FAULT and FCODE by a fault. -/
def Obligations.EachElementHasItsOwnWriters : Prop :=
  ∀ (i : Instr) (s t : State), exec i s = .next t →
    (t.frame ≠ s.frame → ∃ raw, i = .frameSet raw) ∧ (t.cursor ≠ s.cursor → i = .refresh) ∧
    (t.trace ≠ s.trace → i = .refresh) ∧
    (t.tbCount ≠ s.tbCount ∨ t.tbFrac ≠ s.tbFrac ∨ t.tbRun ≠ s.tbRun ∨ t.tpend ≠ s.tpend → i = .tbInit) ∧
    (t.ie ≠ s.ie → (∃ v, i = .ieSet v) ∨ (s.fault = false ∧ t.fault = true)) ∧
    (t.fcode ≠ s.fcode → s.fault = false ∧ t.fault = true) ∧ (s.fault = true → t.fault = true) ∧
    t.cfg = s.cfg ∧ t.schedule = s.schedule

/-- The five reads change no state and repeat their answer (R57, which the spec marks derived): the state after one that does not
fault is the state before but for the value returned, and doing it again changes nothing at all. REFRESH is not one of them: it
moves the cursor. -/
def Obligations.ReadsChangeNothingAndRepeat : Prop :=
  (∀ (i : Instr) (s t : State), s.fault = false →
    (i = .frameGet ∨ (∃ idx, i = .rowGet idx) ∨ i = .statusGet ∨ i = .tbRead ∨ (∃ k, i = .tbReadPart k)) →
    exec i s = .next t → t.fault = false → t = { s with result := t.result } ∧ t.result ≠ none ∧ exec i t = .next t) ∧
  (∀ s : State, s.fault = false → ∃ t, exec .refresh s = .next t ∧ t.cursor ≠ s.cursor)

/-- The tick source never interferes with the rest of the block: taking every tick and service out of a list of steps, whatever
commands and resets it holds, changes no frame, cursor, output trace, fault, IE or TB_RUN at its end, nor the lines while no fault
is on (R60, R166). -/
def Obligations.TickSourceNeverDisturbsTheDisplay : Prop :=
  ∀ (es : List Event) (s : State),
    (let t := runEvents es s
     let u := runEvents (es.filter fun e => !e.ofTickSource) s
     t.frame = u.frame ∧ t.cursor = u.cursor ∧ t.trace = u.trace ∧ t.tbRun = u.tbRun ∧ t.ie = u.ie ∧ t.fault = u.fault ∧
     t.fcode = u.fcode ∧ (t.fault = false → t.rowAct = u.rowAct ∧ t.colAct = u.colAct))

/-! ## Reset and the invariant (10_state.md, 70_reset_and_hazards.md) -/

/-- R41: the values it gives after reset. TB_COUNT and TB_FRAC are unspecified there and this says nothing about them. -/
def Obligations.ResetStateHasTheValuesOfTheSpec : Prop :=
  State.reset.frame = 0 ∧ State.reset.cursor = 0 ∧ State.reset.rowAct = #v[false, false, false] ∧
  State.reset.colAct = #v[false, false, false, false, false] ∧ State.reset.tbRun = false ∧ State.reset.tpend = false ∧
  State.reset.ie = false ∧ State.reset.fault = false ∧ State.reset.fcode = .none

/-- R280: the reset input, in any state and while FAULT = 1 too, sets every element to its reset value in one step, TB_COUNT and
TB_FRAC excepted, which are whatever they are (assumption log 8), and emits the all-off snapshot. That parameters, schedule and trace
are no element and stay is the model's choice (assumption log 24). -/
def Obligations.ResetInputRestoresTheResetState : Prop :=
  ∀ s : State, ∃ t, perform .reset s = .next t ∧
    t = { State.reset with
      tbCount := t.tbCount, tbFrac := t.tbFrac, draws := t.draws, cfg := s.cfg, schedule := s.schedule,
      trace := s.trace ++ [⟨#v[false, false, false], #v[false, false, false, false, false]⟩] }

/-- The invariant holds right after reset. It would hold for every value of TB_COUNT that fits TB_WIDTH bits and every TB_FRAC; the
values in State.reset are the model's choice (assumption log 7). -/
def Obligations.ResetStateSatisfiesTheInvariant : Prop :=
  Inv State.reset

/-- Every step of every agent keeps the invariant: the spare frame bit is 0, the counter fits its width, the accumulator is below its
maximum, a pending tick means a running source, a fault means IE = 0 and a code, and the lines and every snapshot of the trace
obey the display rules (R24, R31, R32, R33, R37, R133, R241). -/
def Obligations.EveryStepKeepsTheInvariant : Prop :=
  ∀ s t : State, Inv s → step s = .next t → Inv t

/-- A step never takes a snapshot back and never changes a parameter: the output trace only grows (R22, R131). That a reset too keeps
the trace, and that the parameters are in the state, is the model's choice (assumption logs 24 and 11). -/
def Obligations.TraceOnlyGrowsAndParametersStay : Prop :=
  ∀ s t : State, step s = .next t → t.cfg = s.cfg ∧ ∃ more, t.trace = s.trace ++ more

/-! ## Collaborators (44_collaborators.md) -/

/-- R222: frame i of the animation table has exactly the bits i and 14 - i, which is one bit only for i = 7, where the frame is
0x0080. -/
def Obligations.AnimationFramesArePointSymmetric : Prop :=
  ∀ p : Params,
    (∀ (i : Fin 15) (b : Nat), (anim p.toParamValues i).getLsbD b = decide (b = i.val ∨ b = 14 - i.val)) ∧
    (∀ i : Fin 15, i.val = 14 - i.val ↔ i = 7) ∧ anim p.toParamValues 7 = 0x0080#32

/-- The driver iteration of R223 with a period of at least 1 and any ticks and services of the tick source between its commands:
it is the run of TB_READ, FRAME_SET ANIM(i) and REFRESH, both selected commands well formed, where TB_READ delivers the counter t
as of its turn and i = (t / period) mod 15; it faults nothing and leaves that frame, its columns in the row at the cursor lit and
the cursor advanced. Before TB_INIT it ends at TB_READ's Fault(READ_BEFORE_INIT), and no frame is set or shown (R244). -/
def Obligations.DriverIterationShowsTheSelectedFrame : Prop :=
  ∀ (period : Nat) (gaps : Nat → List Event) (s : State), 1 ≤ period → s.fault = false →
    (∀ k, ∀ e ∈ gaps k, e.ofTickSource = true) →
    (let t := (runEvents (gaps 0) s).tbCount
     let shown := anim s.cfg.toParamValues (Fin.ofNat 15 (t.toNat / period))
     let u := driverIteration period gaps s
     (s.tbRun = true →
       (runEvents (gaps 0 ++ [.command (encode .tbRead)]) s).result = some t ∧ (Instr.frameSet shown.toNat).wf = true ∧
       u = runEvents (gaps 0 ++ [.command (encode .tbRead)] ++ gaps 1 ++ [.command (encode (.frameSet shown.toNat))] ++
         gaps 2 ++ [.command (encode .refresh)] ++ gaps 3) s ∧
       u.fault = false ∧ u.frame = shown ∧ u.rowAct = onehot s.cursor ∧ u.colAct = row shown s.cursor ∧
       u.cursor.val = (s.cursor.val + 1) % 3) ∧
     (s.tbRun = false → u.fault = true ∧ u.fcode = .readBeforeInit ∧ u.frame = s.frame ∧ u.trace = s.trace))
end

