-- ==== Sys2Proof/Laws/State.lean ====
section
/-! SUPPORT. What each named update leaves in each field of the state, all by rfl, so that no proof unfolds an update. -/

namespace Sys2Proof.Machine

variable (s : State)

@[simp] theorem deliver_frame (v : Word) : (deliver v s).frame = s.frame := rfl
@[simp] theorem deliver_cursor (v : Word) : (deliver v s).cursor = s.cursor := rfl
@[simp] theorem deliver_rowAct (v : Word) : (deliver v s).rowAct = s.rowAct := rfl
@[simp] theorem deliver_colAct (v : Word) : (deliver v s).colAct = s.colAct := rfl
@[simp] theorem deliver_tbCount (v : Word) : (deliver v s).tbCount = s.tbCount := rfl
@[simp] theorem deliver_tbFrac (v : Word) : (deliver v s).tbFrac = s.tbFrac := rfl
@[simp] theorem deliver_tbRun (v : Word) : (deliver v s).tbRun = s.tbRun := rfl
@[simp] theorem deliver_tpend (v : Word) : (deliver v s).tpend = s.tpend := rfl
@[simp] theorem deliver_ie (v : Word) : (deliver v s).ie = s.ie := rfl
@[simp] theorem deliver_fault (v : Word) : (deliver v s).fault = s.fault := rfl
@[simp] theorem deliver_fcode (v : Word) : (deliver v s).fcode = s.fcode := rfl
@[simp] theorem deliver_cfg (v : Word) : (deliver v s).cfg = s.cfg := rfl
@[simp] theorem deliver_schedule (v : Word) : (deliver v s).schedule = s.schedule := rfl
@[simp] theorem deliver_trace (v : Word) : (deliver v s).trace = s.trace := rfl
@[simp] theorem deliver_result (v : Word) : (deliver v s).result = some v := rfl
@[simp] theorem deliver_draws (v : Word) : (deliver v s).draws = s.draws := rfl

@[simp] theorem silent_frame : (silent s).frame = s.frame := rfl
@[simp] theorem silent_cursor : (silent s).cursor = s.cursor := rfl
@[simp] theorem silent_rowAct : (silent s).rowAct = s.rowAct := rfl
@[simp] theorem silent_colAct : (silent s).colAct = s.colAct := rfl
@[simp] theorem silent_tbCount : (silent s).tbCount = s.tbCount := rfl
@[simp] theorem silent_tbFrac : (silent s).tbFrac = s.tbFrac := rfl
@[simp] theorem silent_tbRun : (silent s).tbRun = s.tbRun := rfl
@[simp] theorem silent_tpend : (silent s).tpend = s.tpend := rfl
@[simp] theorem silent_ie : (silent s).ie = s.ie := rfl
@[simp] theorem silent_fault : (silent s).fault = s.fault := rfl
@[simp] theorem silent_fcode : (silent s).fcode = s.fcode := rfl
@[simp] theorem silent_cfg : (silent s).cfg = s.cfg := rfl
@[simp] theorem silent_schedule : (silent s).schedule = s.schedule := rfl
@[simp] theorem silent_trace : (silent s).trace = s.trace := rfl
@[simp] theorem silent_result : (silent s).result = none := rfl
@[simp] theorem silent_draws : (silent s).draws = s.draws := rfl

@[simp] theorem emit_frame (p : Vector Bool 3) (q : Vector Bool 5) : (emit p q s).frame = s.frame := rfl
@[simp] theorem emit_cursor (p : Vector Bool 3) (q : Vector Bool 5) : (emit p q s).cursor = s.cursor := rfl
@[simp] theorem emit_rowAct (p : Vector Bool 3) (q : Vector Bool 5) : (emit p q s).rowAct = p := rfl
@[simp] theorem emit_colAct (p : Vector Bool 3) (q : Vector Bool 5) : (emit p q s).colAct = q := rfl
@[simp] theorem emit_tbCount (p : Vector Bool 3) (q : Vector Bool 5) : (emit p q s).tbCount = s.tbCount := rfl
@[simp] theorem emit_tbFrac (p : Vector Bool 3) (q : Vector Bool 5) : (emit p q s).tbFrac = s.tbFrac := rfl
@[simp] theorem emit_tbRun (p : Vector Bool 3) (q : Vector Bool 5) : (emit p q s).tbRun = s.tbRun := rfl
@[simp] theorem emit_tpend (p : Vector Bool 3) (q : Vector Bool 5) : (emit p q s).tpend = s.tpend := rfl
@[simp] theorem emit_ie (p : Vector Bool 3) (q : Vector Bool 5) : (emit p q s).ie = s.ie := rfl
@[simp] theorem emit_fault (p : Vector Bool 3) (q : Vector Bool 5) : (emit p q s).fault = s.fault := rfl
@[simp] theorem emit_fcode (p : Vector Bool 3) (q : Vector Bool 5) : (emit p q s).fcode = s.fcode := rfl
@[simp] theorem emit_cfg (p : Vector Bool 3) (q : Vector Bool 5) : (emit p q s).cfg = s.cfg := rfl
@[simp] theorem emit_schedule (p : Vector Bool 3) (q : Vector Bool 5) : (emit p q s).schedule = s.schedule := rfl
@[simp] theorem emit_trace (p : Vector Bool 3) (q : Vector Bool 5) : (emit p q s).trace = s.trace ++ [⟨p, q⟩] := rfl
@[simp] theorem emit_result (p : Vector Bool 3) (q : Vector Bool 5) : (emit p q s).result = s.result := rfl
@[simp] theorem emit_draws (p : Vector Bool 3) (q : Vector Bool 5) : (emit p q s).draws = s.draws := rfl

@[simp] theorem drawOutputs_frame : (drawOutputs s).frame = s.frame := rfl
@[simp] theorem drawOutputs_cursor : (drawOutputs s).cursor = s.cursor := rfl
@[simp] theorem drawOutputs_rowAct : (drawOutputs s).rowAct = Config.freeRows s.draws := rfl
@[simp] theorem drawOutputs_colAct : (drawOutputs s).colAct = Config.freeCols s.draws := rfl
@[simp] theorem drawOutputs_tbCount : (drawOutputs s).tbCount = s.tbCount := rfl
@[simp] theorem drawOutputs_tbFrac : (drawOutputs s).tbFrac = s.tbFrac := rfl
@[simp] theorem drawOutputs_tbRun : (drawOutputs s).tbRun = s.tbRun := rfl
@[simp] theorem drawOutputs_tpend : (drawOutputs s).tpend = s.tpend := rfl
@[simp] theorem drawOutputs_ie : (drawOutputs s).ie = s.ie := rfl
@[simp] theorem drawOutputs_fault : (drawOutputs s).fault = s.fault := rfl
@[simp] theorem drawOutputs_fcode : (drawOutputs s).fcode = s.fcode := rfl
@[simp] theorem drawOutputs_cfg : (drawOutputs s).cfg = s.cfg := rfl
@[simp] theorem drawOutputs_schedule : (drawOutputs s).schedule = s.schedule := rfl
@[simp] theorem drawOutputs_trace : (drawOutputs s).trace = s.trace := rfl
@[simp] theorem drawOutputs_result : (drawOutputs s).result = s.result := rfl
@[simp] theorem drawOutputs_draws : (drawOutputs s).draws = s.draws + 1 := rfl

@[simp] theorem raiseFault_frame (c : FaultCode) : (raiseFault c s).frame = s.frame := rfl
@[simp] theorem raiseFault_cursor (c : FaultCode) : (raiseFault c s).cursor = s.cursor := rfl
@[simp] theorem raiseFault_rowAct (c : FaultCode) : (raiseFault c s).rowAct = Config.freeRows s.draws := rfl
@[simp] theorem raiseFault_colAct (c : FaultCode) : (raiseFault c s).colAct = Config.freeCols s.draws := rfl
@[simp] theorem raiseFault_tbCount (c : FaultCode) : (raiseFault c s).tbCount = s.tbCount := rfl
@[simp] theorem raiseFault_tbFrac (c : FaultCode) : (raiseFault c s).tbFrac = s.tbFrac := rfl
@[simp] theorem raiseFault_tbRun (c : FaultCode) : (raiseFault c s).tbRun = s.tbRun := rfl
@[simp] theorem raiseFault_tpend (c : FaultCode) : (raiseFault c s).tpend = s.tpend := rfl
@[simp] theorem raiseFault_ie (c : FaultCode) : (raiseFault c s).ie = false := rfl
@[simp] theorem raiseFault_fault (c : FaultCode) : (raiseFault c s).fault = true := rfl
@[simp] theorem raiseFault_fcode (c : FaultCode) : (raiseFault c s).fcode = c := rfl
@[simp] theorem raiseFault_cfg (c : FaultCode) : (raiseFault c s).cfg = s.cfg := rfl
@[simp] theorem raiseFault_schedule (c : FaultCode) : (raiseFault c s).schedule = s.schedule := rfl
@[simp] theorem raiseFault_trace (c : FaultCode) : (raiseFault c s).trace = s.trace := rfl
@[simp] theorem raiseFault_result (c : FaultCode) : (raiseFault c s).result = none := rfl
@[simp] theorem raiseFault_draws (c : FaultCode) : (raiseFault c s).draws = s.draws + 1 := rfl

@[simp] theorem halted_frame : (halted s).frame = s.frame := rfl
@[simp] theorem halted_cursor : (halted s).cursor = s.cursor := rfl
@[simp] theorem halted_rowAct : (halted s).rowAct = Config.freeRows s.draws := rfl
@[simp] theorem halted_colAct : (halted s).colAct = Config.freeCols s.draws := rfl
@[simp] theorem halted_tbCount : (halted s).tbCount = s.tbCount := rfl
@[simp] theorem halted_tbFrac : (halted s).tbFrac = s.tbFrac := rfl
@[simp] theorem halted_tbRun : (halted s).tbRun = s.tbRun := rfl
@[simp] theorem halted_tpend : (halted s).tpend = s.tpend := rfl
@[simp] theorem halted_ie : (halted s).ie = s.ie := rfl
@[simp] theorem halted_fault : (halted s).fault = s.fault := rfl
@[simp] theorem halted_fcode : (halted s).fcode = s.fcode := rfl
@[simp] theorem halted_cfg : (halted s).cfg = s.cfg := rfl
@[simp] theorem halted_schedule : (halted s).schedule = s.schedule := rfl
@[simp] theorem halted_trace : (halted s).trace = s.trace := rfl
@[simp] theorem halted_result : (halted s).result = none := rfl
@[simp] theorem halted_draws : (halted s).draws = s.draws + 1 := rfl

@[simp] theorem resetInput_frame : (resetInput s).frame = 0 := rfl
@[simp] theorem resetInput_cursor : (resetInput s).cursor = 0 := rfl
@[simp] theorem resetInput_rowAct : (resetInput s).rowAct = Snapshot.allOff.rows := rfl
@[simp] theorem resetInput_colAct : (resetInput s).colAct = Snapshot.allOff.cols := rfl
@[simp] theorem resetInput_tbCount : (resetInput s).tbCount = BitVec.ofNat 32 (Config.freeCount s.draws % 2 ^ s.cfg.tbWidth) := rfl
@[simp] theorem resetInput_tbFrac : (resetInput s).tbFrac = Config.freeFrac s.draws := rfl
@[simp] theorem resetInput_tbRun : (resetInput s).tbRun = false := rfl
@[simp] theorem resetInput_tpend : (resetInput s).tpend = false := rfl
@[simp] theorem resetInput_ie : (resetInput s).ie = false := rfl
@[simp] theorem resetInput_fault : (resetInput s).fault = false := rfl
@[simp] theorem resetInput_fcode : (resetInput s).fcode = .none := rfl
@[simp] theorem resetInput_cfg : (resetInput s).cfg = s.cfg := rfl
@[simp] theorem resetInput_schedule : (resetInput s).schedule = s.schedule := rfl
@[simp] theorem resetInput_trace : (resetInput s).trace = s.trace ++ [Snapshot.allOff] := rfl
@[simp] theorem resetInput_result : (resetInput s).result = none := rfl
@[simp] theorem resetInput_draws : (resetInput s).draws = s.draws + 1 := rfl

@[simp] theorem refreshStep_frame : (refreshStep s).frame = s.frame := rfl
@[simp] theorem refreshStep_cursor : (refreshStep s).cursor = nextRow s.cursor := rfl
@[simp] theorem refreshStep_rowAct : (refreshStep s).rowAct = onehot s.cursor := rfl
@[simp] theorem refreshStep_colAct : (refreshStep s).colAct = row s.frame s.cursor := rfl
@[simp] theorem refreshStep_tbCount : (refreshStep s).tbCount = s.tbCount := rfl
@[simp] theorem refreshStep_tbFrac : (refreshStep s).tbFrac = s.tbFrac := rfl
@[simp] theorem refreshStep_tbRun : (refreshStep s).tbRun = s.tbRun := rfl
@[simp] theorem refreshStep_tpend : (refreshStep s).tpend = s.tpend := rfl
@[simp] theorem refreshStep_ie : (refreshStep s).ie = s.ie := rfl
@[simp] theorem refreshStep_fault : (refreshStep s).fault = s.fault := rfl
@[simp] theorem refreshStep_fcode : (refreshStep s).fcode = s.fcode := rfl
@[simp] theorem refreshStep_cfg : (refreshStep s).cfg = s.cfg := rfl
@[simp] theorem refreshStep_schedule : (refreshStep s).schedule = s.schedule := rfl
@[simp] theorem refreshStep_trace : (refreshStep s).trace = s.trace ++ [Snapshot.allOff] ++ [⟨onehot s.cursor, Snapshot.allOff.cols⟩] ++ [⟨onehot s.cursor, row s.frame s.cursor⟩] := rfl
@[simp] theorem refreshStep_result : (refreshStep s).result = s.result := rfl
@[simp] theorem refreshStep_draws : (refreshStep s).draws = s.draws := rfl

@[simp] theorem serviceUpdate_frame : (serviceUpdate s).frame = s.frame := rfl
@[simp] theorem serviceUpdate_cursor : (serviceUpdate s).cursor = s.cursor := rfl
@[simp] theorem serviceUpdate_rowAct : (serviceUpdate s).rowAct = s.rowAct := rfl
@[simp] theorem serviceUpdate_colAct : (serviceUpdate s).colAct = s.colAct := rfl
@[simp] theorem serviceUpdate_tbCount : (serviceUpdate s).tbCount = nextCount s.cfg.toParamValues s.tbCount s.tbFrac := rfl
@[simp] theorem serviceUpdate_tbFrac : (serviceUpdate s).tbFrac = nextFrac s.cfg.toParamValues s.tbFrac := rfl
@[simp] theorem serviceUpdate_tbRun : (serviceUpdate s).tbRun = s.tbRun := rfl
@[simp] theorem serviceUpdate_tpend : (serviceUpdate s).tpend = false := rfl
@[simp] theorem serviceUpdate_ie : (serviceUpdate s).ie = s.ie := rfl
@[simp] theorem serviceUpdate_fault : (serviceUpdate s).fault = s.fault := rfl
@[simp] theorem serviceUpdate_fcode : (serviceUpdate s).fcode = s.fcode := rfl
@[simp] theorem serviceUpdate_cfg : (serviceUpdate s).cfg = s.cfg := rfl
@[simp] theorem serviceUpdate_schedule : (serviceUpdate s).schedule = s.schedule := rfl
@[simp] theorem serviceUpdate_trace : (serviceUpdate s).trace = s.trace := rfl
@[simp] theorem serviceUpdate_result : (serviceUpdate s).result = s.result := rfl
@[simp] theorem serviceUpdate_draws : (serviceUpdate s).draws = s.draws := rfl

end Sys2Proof.Machine
end

