-- ==== Sys2Proof/Laws/Ops.lean ====
section
/-! SUPPORT. One lemma per shared operation that says everything it can do, cited instead of unfolding it. -/

namespace Sys2Proof

/-- R7's constraints, as facts a proof can use. -/
theorem Params.facts (p : Params) : p.partW < p.tbWidth ∧ p.tbWidth % p.partW = 0 ∧ 16 ≤ p.tbWidth ∧ p.tbWidth ≤ 32 ∧
    1 ≤ p.tbFracMax ∧ p.tbFracInc < p.tbFracMax ∧ p.tbInc + 1 < 2 ^ p.tbWidth := by
  have h := p.checked
  simp only [ParamValues.ok, Bool.and_eq_true, decide_eq_true_eq] at h
  exact ⟨h.1.1.1.1.1.1.2, h.1.1.1.1.1.2, h.1.1.1.1.2, h.1.1.1.2, h.1.1.2, h.1.2, h.2⟩

/-- A number cut to TB_WIDTH bits keeps its value in the 32-bit register. -/
theorem Params.toNat_cut (p : Params) (x : Nat) : (BitVec.ofNat 32 (x % 2 ^ p.tbWidth)).toNat = x % 2 ^ p.tbWidth := by
  have h1 : x % 2 ^ p.tbWidth < 2 ^ p.tbWidth := Nat.mod_lt _ (Nat.two_pow_pos _)
  have h2 : 2 ^ p.tbWidth ≤ 2 ^ 32 := Nat.pow_le_pow_right (by decide) p.facts.2.2.2.1
  rw [BitVec.toNat_ofNat, Nat.mod_eq_of_lt (by omega)]

end Sys2Proof

namespace Sys2Proof.Machine

theorem accept_running {s : State} (h : s.fault = false) (body : State → Outcome) : accept s body = body s := by
  simp [accept, h]

theorem accept_faulted {s : State} (h : s.fault = true) (body : State → Outcome) : accept s body = .next (halted s) := by
  simp [accept, h]

/-- Inversion of `accept`: a faulted block only lets its lines drift, a running one performs the body. -/
theorem accept_next {s t : State} {body : State → Outcome} (h : accept s body = .next t) :
    (s.fault = true ∧ t = halted s) ∨ (s.fault = false ∧ body s = .next t) := by
  cases hf : s.fault
  · exact .inr ⟨rfl, by rwa [accept_running hf] at h⟩
  · rw [accept_faulted hf] at h
    exact .inl ⟨rfl, by cases h; rfl⟩

/-- A tick-source step: halted while faulted, performed when enabled, else nothing. -/
theorem ifEnabled_cases (en : Bool) (s : State) (body : State → State) :
    (s.fault = true ∧ ifEnabled en s body = halted s) ∨
    (s.fault = false ∧ en = true ∧ ifEnabled en s body = silent (body s)) ∨
    (s.fault = false ∧ en = false ∧ ifEnabled en s body = silent s) := by
  cases hf : s.fault <;> cases en <;> simp [ifEnabled, hf]

/-- Masking the ticks around a read leaves the state as it was: IE ends equal to its value before (42_timebase.md R167). -/
@[simp] theorem withTicksMasked_eq (read : State → Word) (s : State) :
    withTicksMasked read s = (read { s with ie := false }, s) := rfl

theorem rowIndex?_of_lt {idx : Nat} (h : idx < 3) : rowIndex? idx = some ⟨idx, h⟩ := dif_pos h

theorem rowIndex?_of_ge {idx : Nat} (h : 3 ≤ idx) : rowIndex? idx = none := dif_neg (Nat.not_lt.mpr h)

/-- The accumulator stays below TB_FRAC_MAX (42_timebase.md R165). -/
theorem nextFrac_lt {p : ParamValues} (hinc : p.tbFracInc < p.tbFracMax) {frac : Nat} (h : frac < p.tbFracMax) :
    nextFrac p frac < p.tbFracMax := by
  unfold nextFrac tickCarry fracSum
  split <;> omega

@[simp] theorem toNat_nextCount (p : Params) (count : Word) (frac : Nat) :
    (nextCount p.toParamValues count frac).toNat = (count.toNat + tickGain p.toParamValues frac) % 2 ^ p.tbWidth :=
  p.toNat_cut _

end Sys2Proof.Machine
end

