-- ==== Sys2Proof/Laws/Agents.lean ====
section
/-! SUPPORT. What one agent step does, in the form later proofs cite: every step answers a next state, and `after` names it. -/

namespace Sys2Proof.Machine

/-- No meaning stops. -/
theorem exec_isNext (i : Instr) (s : State) : ∃ t, exec i s = .next t := by
  cases hf : s.fault
  · cases i <;>
      simp only [exec, execFrameSet, execFrameGet, execRowGet, execRefresh, execStatusGet, execTbInit, execTbRead,
        execTbReadPart, execIeSet, accept_running hf] <;>
      (try split) <;> (try split) <;> exact ⟨_, rfl⟩
  · cases i <;>
      exact ⟨halted s, by
        simp only [exec, execFrameSet, execFrameGet, execRowGet, execRefresh, execStatusGet, execTbInit, execTbRead,
          execTbReadPart, execIeSet, accept_faulted hf]⟩

theorem perform_isNext (e : Event) (s : State) : ∃ t, perform e s = .next t := by
  cases e with
  | command w =>
    simp only [perform, commandStep]
    split
    · exact exec_isNext _ s
    · cases hf : s.fault
      · exact ⟨_, accept_running hf _⟩
      · exact ⟨_, accept_faulted hf _⟩
  | tick => exact ⟨_, rfl⟩
  | service => exact ⟨_, rfl⟩
  | reset => exact ⟨_, rfl⟩

/-- `after` is the next state of `perform`. -/
theorem perform_eq_after (e : Event) (s : State) : perform e s = .next (after e s) := by
  obtain ⟨t, h⟩ := perform_isNext e s
  simp [after, h]

@[simp] theorem after_tick (s : State) : after .tick s = tickEvent s := rfl

@[simp] theorem after_service (s : State) : after .service s = tickService s := rfl

@[simp] theorem after_reset (s : State) : after .reset s = resetInput s := rfl

theorem after_command {w : Word} {i : Instr} {s t : State} (hd : decode w = .command i) (h : exec i s = .next t) :
    after (.command w) s = t := by
  simp [after, perform, commandStep, hd, h]

theorem after_illegal {w : Word} {why : Illegal} {s : State} (hd : decode w = .illegal why) (hf : s.fault = false) :
    after (.command w) s = raiseFault .illegalCommand s := by
  simp [after, perform, commandStep, hd, accept_running hf]

theorem tickEvent_running {s : State} (hf : s.fault = false) :
    tickEvent s = { s with tpend := s.tpend || s.tbRun, result := none } := by
  cases hr : s.tbRun <;> simp [tickEvent, ifEnabled, tickEnabled, hf, hr, silent]

theorem tickService_enabled {s : State} (h : serviceEnabled s = true) : tickService s = silent (serviceUpdate s) := by
  have hf : s.fault = false := by
    cases hf : s.fault <;> simp_all [serviceEnabled]
  simp [tickService, ifEnabled, hf, h]

theorem tickService_disabled {s : State} (hf : s.fault = false) (h : serviceEnabled s = false) :
    tickService s = silent s := by
  simp [tickService, ifEnabled, hf, h]

/-- While FAULT = 1 every step but reset leaves the state to `halted` (60_exceptions.md R244). -/
theorem exec_faulted (i : Instr) {s : State} (hf : s.fault = true) : exec i s = .next (halted s) := by
  cases i <;>
    simp only [exec, execFrameSet, execFrameGet, execRowGet, execRefresh, execStatusGet, execTbInit, execTbRead,
      execTbReadPart, execIeSet, accept_faulted hf]

theorem runEvents_append (a b : List Event) (s : State) : runEvents (a ++ b) s = runEvents b (runEvents a s) := by
  induction a generalizing s with
  | nil => rfl
  | cons e a ih => simp [runEvents, ih]

theorem returned_append (a b : List Event) (s : State) : returned (a ++ b) s = returned a s ++ returned b (runEvents a s) := by
  induction a generalizing s with
  | nil => rfl
  | cons e a ih => simp [runEvents, returned, ih]

end Sys2Proof.Machine
end

