-- ==== Sys2Proof/Laws/Decode.lean ====
section
/-! SUPPORT. Command words as numbers: the fields of R70 and the masks of R75 read as division and remainder, which is the form
encoding proofs close by omega. -/

namespace Sys2Proof

theorem toNat_opField (w : Word) : (opField w).toNat = w.toNat / 2 ^ 24 := by
  have h := w.isLt
  simp only [opField, BitVec.extractLsb'_toNat, Nat.shiftRight_eq_div_pow]
  omega

theorem toNat_rsvField (w : Word) : (rsvField w).toNat = w.toNat / 2 ^ 16 % 2 ^ 8 := by
  simp only [rsvField, BitVec.extractLsb'_toNat, Nat.shiftRight_eq_div_pow]

theorem toNat_dataField (w : Word) : (dataField w).toNat = w.toNat % 2 ^ 16 := by
  simp only [dataField, BitVec.extractLsb'_toNat, Nat.shiftRight_eq_div_pow, Nat.pow_zero, Nat.div_one]

/-- OP ++ RSV ++ DATA with RSV = 0 as a number (R70). -/
theorem toNat_assembled (op : BitVec 8) (n : Nat) :
    (op ++ (0 : BitVec 8) ++ BitVec.ofNat 16 n : Word).toNat = op.toNat * 2 ^ 24 + n % 2 ^ 16 := by
  have h := op.isLt
  have hn : n % 65536 < 2 ^ 16 := Nat.mod_lt _ (by decide)
  rw [BitVec.toNat_append, BitVec.toNat_append, BitVec.toNat_ofNat, show (0 : BitVec 8).toNat = 0 from rfl, Nat.or_zero,
    ← Nat.shiftLeft_add_eq_or_of_lt hn, Nat.shiftLeft_eq, Nat.shiftLeft_eq]
  omega

theorem toNat_encode (i : Instr) : (encode i).toNat = i.opcode.bits.toNat * 2 ^ 24 + i.data % 2 ^ 16 :=
  toNat_assembled _ _

/-- The bits a mask of ones above bit k keeps. -/
theorem toNat_and_highMask (w : Word) (k : Nat) :
    (w &&& (BitVec.allOnes 32 <<< k)).toNat = w.toNat / 2 ^ k * 2 ^ k := by
  have h : w &&& (BitVec.allOnes 32 <<< k) = (w >>> k) <<< k := by
    apply BitVec.eq_of_getLsbD_eq
    intro j hj
    by_cases hk : j < k
    · simp [hk]
    · have e : k + (j - k) = j := by omega
      simp only [BitVec.getLsbD_and, BitVec.getLsbD_shiftLeft, BitVec.getLsbD_allOnes, BitVec.getLsbD_ushiftRight, hj, hk, e,
        show j - k < 32 by omega, decide_true, decide_false, Bool.not_false, Bool.and_true, Bool.true_and]
  have hle : w.toNat / 2 ^ k * 2 ^ k ≤ w.toNat := Nat.div_mul_le_self _ _
  rw [h, BitVec.toNat_shiftLeft, BitVec.toNat_ushiftRight, Nat.shiftRight_eq_div_pow, Nat.shiftLeft_eq,
    Nat.mod_eq_of_lt (lt_of_le_of_lt hle w.isLt)]

/-- How many low bits each row of R75 leaves to the operand. -/
theorem opcodeMap_masks : ∀ r ∈ opcodeMap, r.mask = BitVec.allOnes 32 <<< r.opcode.form.operandBits ∧
    r.pattern.toNat = r.opcode.bits.toNat * 2 ^ 24 := by decide

/-- A row matches a word when the bits above the operand are the opcode's (R75). -/
theorem matches_iff {r : OpRow} (h : r ∈ opcodeMap) (w : Word) :
    r.matches w = true ↔ w.toNat / 2 ^ r.opcode.form.operandBits * 2 ^ r.opcode.form.operandBits =
      r.opcode.bits.toNat * 2 ^ 24 := by
  obtain ⟨hm, hp⟩ := opcodeMap_masks r h
  rw [OpRow.matches, beq_iff_eq, ← BitVec.toNat_inj, hm, toNat_and_highMask, hp]

end Sys2Proof
end

