-- ==== Sys2Proof/Laws/Operands.lean ====
section
/-! SUPPORT. Small lemmas of the operand functions, in numbers a proof can compute with. -/

namespace Sys2Proof.Machine

/-- R7's FRAME_W >= FRAME_BITS. -/
theorem frameBits_le_frameW (p : Params) : 15 ≤ p.frameW := by
  have h := p.checked
  simp only [ParamValues.ok, Bool.and_eq_true, decide_eq_true_eq] at h
  exact h.1.1.1.1.1.1.1

/-- construct(raw) is the low 15 bits of raw, whatever FRAME_W is (40_frame.md R100, D3). -/
theorem construct_eq (p : Params) (raw : Nat) : construct p.toParamValues raw = (BitVec.ofNat 15 raw).setWidth 32 := by
  have h := frameBits_le_frameW p
  apply BitVec.eq_of_getLsbD_eq
  intro j hj
  simp only [construct, Config.FRAME_BITS, Config.WIDTH, Config.HEIGHT, BitVec.getLsbD_setWidth, hj, decide_true, Bool.true_and]
  by_cases hl : j < p.frameW
  · simp [hl]
  · rw [BitVec.getLsbD_of_ge _ _ (by omega)]
    simp

/-- chunk(f, r) as a number (40_frame.md R101). -/
theorem toNat_chunk (f : FrameWord) (r : Fin 3) : (chunk f r).toNat = f.toNat / 2 ^ ((2 - r.val) * 5) % 2 ^ 5 := by
  simp [chunk, Config.HEIGHT, Config.WIDTH, BitVec.toNat_setWidth, BitVec.toNat_ushiftRight, Nat.shiftRight_eq_div_pow]

/-- Column c of a row is bit 4-c of its chunk (R102). -/
theorem row_getElem (f : FrameWord) (r : Fin 3) (c : Fin 5) : (row f r)[c] = (chunk f r).getLsbD (4 - c.val) := by
  fin_cases c <;> rfl

/-- onehot(r)[i] = 1 iff i = r (41_display.md R132). -/
theorem onehot_getElem (r i : Fin 3) : (onehot r)[i] = decide (i = r) := by
  revert r i
  decide

@[simp] theorem val_nextRow (r : Fin 3) : (nextRow r).val = (r.val + 1) % 3 := rfl

theorem toNat_statusWord (s : State) :
    (statusWord s).toNat = s.cursor.val + 4 * s.tbRun.toNat + 8 * s.tpend.toNat + 16 * s.ie.toNat := by
  unfold statusWord
  generalize s.cursor = c
  generalize s.tbRun = r
  generalize s.tpend = p
  generalize s.ie = i
  revert c r p i
  decide

end Sys2Proof.Machine
end

