-- ==== Sys2Proof/Laws/PerInstr.lean ====
section
/-! SUPPORT. Family MatchesRow: a well-formed command's word matches the opcode map's row of that command (30_encoding.md R75). -/

namespace Sys2Proof.Laws.MatchesRow

/-- The encoded word matches a row of R75 with the command's own opcode. -/
def Statement (i : Instr) : Prop :=
  i.wf = true → ∃ r ∈ opcodeMap, r.opcode = i.opcode ∧ r.matches (encode i) = true

/-- An operand below its field's bound leaves the bits the row's mask keeps as the pattern has them. -/
theorem matches_of_fits {r : OpRow} (hr : r ∈ opcodeMap) {i : Instr} (ho : r.opcode = i.opcode)
    (hd : i.data < 2 ^ r.opcode.form.operandBits) : ∃ r ∈ opcodeMap, r.opcode = i.opcode ∧ r.matches (encode i) = true := by
  refine ⟨r, hr, ho, (matches_iff hr _).mpr ?_⟩
  rw [toNat_encode, ← ho]
  generalize r.opcode = o at hd ⊢
  cases o <;> simp only [Opcode.form, Form.operandBits, Opcode.bits] at hd ⊢ <;> omega

theorem frameSet (raw : Nat) : Statement (.frameSet raw) := fun h =>
  matches_of_fits (r := ⟨.frameSet, 0x01000000, 0xFFFF0000⟩) (by decide) rfl (of_decide_eq_true h)

theorem frameGet : Statement .frameGet := by unfold Statement; decide

theorem rowGet (idx : Nat) : Statement (.rowGet idx) := fun h =>
  matches_of_fits (r := ⟨.rowGet, 0x03000000, 0xFFFFFFFC⟩) (by decide) rfl (of_decide_eq_true h)

theorem refresh : Statement .refresh := by unfold Statement; decide

theorem statusGet : Statement .statusGet := by unfold Statement; decide

theorem tbInit : Statement .tbInit := by unfold Statement; decide

theorem tbRead : Statement .tbRead := by unfold Statement; decide

theorem tbReadPart (k : Nat) : Statement (.tbReadPart k) := fun h =>
  matches_of_fits (r := ⟨.tbReadPart, 0x12000000, 0xFFFFFF00⟩) (by decide) rfl (of_decide_eq_true h)

theorem ieSet (v : Bool) : Statement (.ieSet v) := by cases v <;> (unfold Statement; decide)

end Sys2Proof.Laws.MatchesRow
end

