-- ==== Sys2Proof/Tests/Slice0.lean ====
section
/-! SUPPORT. Tests whose expected values are the spec's own: its encodings (30_encoding.md), worked examples and vectors
(95_test_vectors.md, W and V numbers). Then one witness for each statement with hypotheses. -/

namespace Sys2Proof.Tests

open Sys2Proof Sys2Proof.Machine

/-! ## Small states -/

/-- The next state of an outcome. -/
def next? : Outcome → Option State
  | .next t => some t
  | .fault _ => none
  | .refused _ => none

/-- One field of the next state. -/
def got {α : Type} (o : Outcome) (f : State → α) : Option α := (next? o).map f

/-- After boot: TB_INIT and IE_SET 1 have run (R282). -/
def booted : State := { State.reset with tbRun := true, ie := true }

/-- Fail-stopped on a read before init (P5, line 1). -/
def faulted : State := { State.reset with fault := true, fcode := .readBeforeInit }

/-- K7's first parameter set, the one of V45 to V47. -/
def fracParams : Params :=
  { frameW := 16, tbWidth := 32, partW := 8, tbInc := 1, tbFracInc := 3, tbFracMax := 125, tickPeriodUs := 1024, rowActiveLevel := false,
    colActiveLevel := false, checked := by decide }

/-! ## WellFormed and the parameters: one ill-formed term for each check (R74, R7) -/

theorem test_wf_refuses_17_bit_raw : (Instr.frameSet 0x10000).wf = false := by decide
theorem test_wf_refuses_3_bit_idx : (Instr.rowGet 4).wf = false := by decide
theorem test_wf_refuses_9_bit_part : (Instr.tbReadPart 256).wf = false := by decide
theorem test_wf_accepts_the_largest_operands :
    (Instr.frameSet 0xFFFF).wf = true ∧ (Instr.rowGet 3).wf = true ∧ (Instr.tbReadPart 255).wf = true := by decide
theorem test_params_refused :
    ({ Params.default.toParamValues with frameW := 14 }).ok = false ∧
    ({ Params.default.toParamValues with partW := 32 }).ok = false ∧
    ({ Params.default.toParamValues with partW := 7 }).ok = false ∧
    ({ Params.default.toParamValues with partW := 0 }).ok = false ∧
    ({ Params.default.toParamValues with tbWidth := 8, partW := 4 }).ok = false ∧
    ({ Params.default.toParamValues with tbWidth := 40 }).ok = false ∧
    ({ Params.default.toParamValues with tbFracMax := 0 }).ok = false ∧
    ({ Params.default.toParamValues with tbFracInc := 1 }).ok = false ∧
    ({ Params.default.toParamValues with tbInc := 0xFFFFFFFF }).ok = false := by decide

/-! ## Decoding: words written out field by field from R75's patterns -/

theorem test_decode_frame_set :
    decode (0b00000001#8 ++ 0b00000000#8 ++ 0b1010101111001101#16) = .command (.frameSet 0xABCD) := by decide
theorem test_decode_frame_get : decode (0b00000010#8 ++ 0b00000000#8 ++ 0#16) = .command .frameGet := by decide
theorem test_decode_row_get :
    decode (0b00000011#8 ++ 0b00000000#8 ++ 0b0000000000000010#16) = .command (.rowGet 2) := by decide
theorem test_decode_refresh : decode (0b00000100#8 ++ 0b00000000#8 ++ 0#16) = .command .refresh := by decide
theorem test_decode_status_get : decode (0b00000101#8 ++ 0b00000000#8 ++ 0#16) = .command .statusGet := by decide
theorem test_decode_tb_init : decode (0b00010000#8 ++ 0b00000000#8 ++ 0#16) = .command .tbInit := by decide
theorem test_decode_tb_read : decode (0b00010001#8 ++ 0b00000000#8 ++ 0#16) = .command .tbRead := by decide
theorem test_decode_tb_read_part :
    decode (0b00010010#8 ++ 0b00000000#8 ++ 0b0000000011111110#16) = .command (.tbReadPart 254) := by decide
theorem test_decode_ie_set : decode (0b00100000#8 ++ 0b00000000#8 ++ 0b0000000000000001#16) = .command (.ieSet true) := by decide
/-- V60 to V63: unassigned opcodes. -/
theorem test_decode_unassigned :
    decode 0x00000000#32 = .illegal .opcode ∧ decode 0x06000000#32 = .illegal .opcode ∧
    decode 0xFF000000#32 = .illegal .opcode ∧ decode 0x13000000#32 = .illegal .opcode := by decide
/-- V11, V12, V31, V43, V52: reserved and "must be 0" bits. -/
theorem test_decode_reserved_bits :
    decode 0x03000004#32 = .illegal .operand ∧ decode 0x01010000#32 = .illegal .reserved ∧
    decode 0x04000001#32 = .illegal .operand ∧ decode 0x12000100#32 = .illegal .operand ∧
    decode 0x20000002#32 = .illegal .operand := by decide
/-- R106, R170 and R201's encodings. -/
theorem test_encode :
    encode (.frameSet 0xC000) = 0x0100C000#32 ∧ encode (.tbReadPart 1) = 0x12000001#32 ∧
    encode (.ieSet true) = 0x20000001#32 := by decide
theorem test_table_word : decodeTableWord 32 0x0100ABCD = some (.frameSet 0xABCD) ∧ decodeTableWord 32 0 = none := by decide

/-! ## One step of each command -/

/-- V66. -/
theorem test_frame_set_masks : got (exec (.frameSet 0xABCD) State.reset) (·.frame) = some 0x2BCD := by decide
/-- D3: a wider register masks the same way. -/
theorem test_frame_set_wide_register :
    got (exec (.frameSet 0xFFFF) { State.reset with cfg := { Params.default with frameW := 20, checked := by decide } }) (·.frame) =
      some 0x7FFF := by decide
/-- V4. -/
theorem test_frame_set_spare_bit_only : got (exec (.frameSet 0x8000) State.reset) (·.frame) = some 0 := by decide
/-- R107's example. -/
theorem test_frame_get :
    got (exec .frameGet { State.reset with frame := 0x7FFF }) (·.result) = some (some 0x00007FFF) := by decide
/-- V8: row 1 of 0x1234. -/
theorem test_row_get : got (exec (.rowGet 1) { State.reset with frame := 0x1234 }) (·.result) = some (some 0x11) := by decide
/-- V10. -/
theorem test_row_get_3_faults :
    got (exec (.rowGet 3) booted) (fun t => (t.fault, t.fcode, t.ie, t.result)) = some (true, .rowIndex, false, none) := by
  decide
/-- V24. -/
theorem test_refresh_row_1 :
    got (exec .refresh { State.reset with frame := 0x1234, cursor := 1, trace := [] }) (fun t => (t.trace, t.cursor)) =
      some ([⟨#v[false, false, false], #v[false, false, false, false, false]⟩,
        ⟨#v[false, true, false], #v[false, false, false, false, false]⟩,
        ⟨#v[false, true, false], #v[true, false, false, false, true]⟩], 2) := by decide
/-- V23: the cursor wraps; V26: the active-low levels at its end. -/
theorem test_refresh_wraps_and_levels :
    got (exec .refresh { State.reset with frame := 0x4001, cursor := 2 })
      (fun t => (t.cursor, [rowPin t 0, rowPin t 1, rowPin t 2], [colPin t 0, colPin t 1, colPin t 2, colPin t 3, colPin t 4])) =
      some (0, [true, true, false], [true, true, true, true, false]) := by decide
/-- V29. -/
theorem test_status_get : got (exec .statusGet { booted with cursor := 1 }) (·.result) = some (some 0x15) := by decide
/-- V30: TPEND = 1, TB_RUN = 1, IE = 0. -/
theorem test_status_get_pending :
    got (exec .statusGet { State.reset with tbRun := true, tpend := true }) (·.result) = some (some 0x0C) := by decide
/-- R161's example. -/
theorem test_tb_init :
    got (exec .tbInit { State.reset with tbCount := 77, tbFrac := 9, ie := true })
      (fun t => (t.tbCount, t.tbFrac, t.tbRun, t.tpend, t.ie)) = some (0, 0, true, false, true) := by decide
/-- V35. -/
theorem test_tb_init_twice_faults :
    got (exec .tbInit { booted with tbCount := 5 }) (fun t => (t.fcode, t.ie, t.tbCount)) = some (.reinit, false, 5) := by decide
/-- V44: the pending tick is not serviced inside the read; V40: IE is restored. -/
theorem test_tb_read :
    got (exec .tbRead { booted with tbCount := 5, tpend := true }) (fun t => (t.result, t.ie, t.tpend)) =
      some (some 5, true, true) := by decide
/-- V32. -/
theorem test_tb_read_before_init_faults :
    got (exec .tbRead State.reset) (fun t => (t.fault, t.fcode, t.result)) = some (true, .readBeforeInit, none) := by decide
/-- V41. -/
theorem test_tb_read_part :
    got (exec (.tbReadPart 1) { booted with tbCount := 0x12345678 }) (·.result) = some (some 0x56) := by decide
/-- V34: the range is checked before init. -/
theorem test_tb_read_part_4_faults : got (exec (.tbReadPart 4) State.reset) (·.fcode) = some .illegalCommand := by decide
/-- V53. -/
theorem test_ie_set : got (exec (.ieSet true) State.reset) (·.ie) = some true := by decide

/-! ## One step of each other agent, and of the machine -/

/-- V51: TPEND is set and no service is enabled. -/
theorem test_tick : got (perform .tick { booted with ie := false }) (fun t => (t.tpend, serviceEnabled t)) = some (true, false) := by
  decide
/-- V53: no tick occurs while TB_RUN = 0. -/
theorem test_tick_not_running : got (perform .tick State.reset) (·.tpend) = some false := by decide
/-- V37: the wrap is no fault. -/
theorem test_service_wraps :
    got (perform .service { booted with tpend := true, tbCount := 0xFFFFFFFF }) (fun t => (t.tbCount, t.tpend, t.fault)) =
      some (0, false, false) := by decide
/-- V46: 123 + 3 = 126 carries: 41 becomes 43 and the accumulator 1. -/
theorem test_service_carries :
    got (perform .service { booted with cfg := fracParams, tpend := true, tbCount := 41, tbFrac := 123 })
      (fun t => (t.tbCount, t.tbFrac)) = some (43, 1) := by decide
/-- V65, P5. -/
theorem test_reset_ends_a_fault :
    got (perform .reset { faulted with frame := 0x0080, trace := [] }) (fun t => (t.fault, t.fcode, t.frame, t.trace)) =
      some (false, .none, 0, [⟨#v[false, false, false], #v[false, false, false, false, false]⟩]) := by decide
/-- V64, P5 line 2. -/
theorem test_faulted_block_accepts_nothing :
    got (perform (.command 0x10000000) faulted) (fun t => (t.tbRun, t.fault, t.fcode)) =
      some (false, true, .readBeforeInit) := by decide
/-- V12. -/
theorem test_illegal_word_faults :
    got (perform (.command 0x01010000) booted) (fun t => (t.fcode, t.ie, t.frame)) = some (.illegalCommand, false, 0) := by decide
theorem test_step_runs_the_fetched_word :
    got (step (State.reset.withFetchWord 32 0x0100ABCD)) (fun t => (t.frame, t.schedule)) = some (0x2BCD, []) := by decide
/-- The code column of 60_exceptions.md R242. -/
theorem test_fault_codes : [FaultCode.none, .illegalCommand, .rowIndex, .readBeforeInit, .reinit].map FaultCode.number =
    [0, 1, 2, 3, 4] := by decide
theorem test_step_waits : step State.reset = .next State.reset := rfl

/-! ## Host side -/

/-- W9 and W10. -/
theorem test_animation :
    [0, 5, 7, 13].map (anim Params.default.toParamValues) = [0x4001, 0x0220, 0x0080, 0x2002] ∧
    animIndex 100 199 = 1 ∧ animIndex 100 200 = 2 := by decide
/-- R81 and R82: a literal as W1 writes it, a comment, and an operand out of range. -/
theorem test_assembler :
    assembleLine Params.default.toParamValues true "FRAME_SET  0b1_0000_0000_0000_00 ; W1" = .words [0x01004000] ∧
    assembleLine Params.default.toParamValues true "FRAME_DOT 0" = .words [0x01004000] ∧
    assembleLine Params.default.toParamValues true "IE_SET 2" = .error .outOfRange ∧
    assembleLine Params.default.toParamValues true "FRAME_SET 0x10000" = .error .outOfRange ∧
    assembleLine Params.default.toParamValues true "; nothing" = .words [] := by decide
/-- P2's lines 0 to 6 are the expansion of TB_READ_CS. -/
theorem test_assembler_tb_read_cs :
    assembleLine Params.default.toParamValues true "TB_READ_CS" =
      .words [0x05000000, 0x20000000, 0x12000000, 0x12000001, 0x12000002, 0x12000003, 0x20000001] := by decide

/-! ## Witnesses: concrete states and operands that meet the hypotheses of each statement, clause by clause -/

theorem inv_booted : Inv booted :=
  ⟨fun b _ => BitVec.getLsbD_zero, by decide, by decide, by decide, by decide, by decide, fun _ => ⟨by decide, by decide⟩,
    fun p hp => by rw [List.mem_singleton.mp hp]; exact ⟨by decide, by decide⟩⟩

theorem witness_DecodeOfEncodeIsIdentity : (Instr.rowGet 3).wf = true := by decide
theorem witness_EncodeOfDecodeIsTheWord : decode 0x120000FF#32 = .command (.tbReadPart 255) := by decide
theorem witness_WordIsACommandExactlyWhenARowMatches :
    (⟨.ieSet, 0x20000000, 0xFFFFFFFE⟩ : OpRow) ∈ opcodeMap ∧
    (⟨.ieSet, 0x20000000, 0xFFFFFFFE⟩ : OpRow).matches 0x20000001#32 = true := by decide
theorem witness_WordThatMatchesNoRowFaults :
    booted.fault = false ∧ ∀ r ∈ opcodeMap, r.matches 0x20000002#32 = false := by decide
theorem witness_StepTakesTheNextScheduledStep :
    (State.reset.withFetchWord 32 0x04000000).schedule = .command 0x04000000 :: [] ∧
    decode 0x04000000#32 = .command .refresh ∧
    ({ State.reset with schedule := [.tick, .reset] } : State).schedule = .tick :: [.reset] ∧
    State.reset.schedule = [] ∧ State.reset.fault = false := by decide
theorem witness_RunOfStepsIsRunOfTheSchedule :
    ({ State.reset with schedule := [.tick, .service, .reset] } : State).schedule = [.tick, .service] ++ [.reset] := by decide
theorem witness_PseudoInstructionsExpand : 14 < 15 ∧ State.reset.fault = false := by decide
theorem witness_FrameSetStoresTheMaskedFrame : State.reset.fault = false := by decide
theorem witness_FrameGetReturnsTheFrame :
    ({ booted with frame := 0x7FFF } : State).fault = false ∧ Inv { booted with frame := 0x7FFF } :=
  ⟨rfl, { inv_booted with
    frameSpareClear := fun b hb => Nat.testBit_lt_two_pow (lt_of_lt_of_le (by decide) (Nat.pow_le_pow_right (by decide) hb)) }⟩
theorem witness_RowGetReturnsTheChunkOrFaults : booted.fault = false ∧ 2 < 3 ∧ 3 ≤ 3 := by decide
theorem witness_LastFrameSetWinsAtTheNextRefresh : 0xFFFF < 2 ^ 16 ∧ 0 < 2 ^ 16 ∧ booted.fault = false := by decide
theorem witness_RefreshEmitsThreeSnapshotsAndAdvances : ({ State.reset with cursor := 2 } : State).fault = false := by decide
theorem witness_RefreshLightsExactlyTheCursorRow :
    ({ State.reset with frame := 0x7FFF, cursor := 2 } : State).fault = false := by decide
theorem witness_ConsecutiveRefreshesVisitTheRowsInOrder : ({ booted with cursor := 1 } : State).fault = false := by decide
theorem witness_CursorCountsRefreshesUnderAnySchedule :
    Event.reset ∉ [Event.tick, .command (encode .refresh)] ∧
    (runEvents [.tick, .command (encode .refresh)] booted).fault = false := by decide
/-- FRAME_SET is such a step, and so is a tick; both end without a fault. -/
theorem witness_OnlyRefreshMovesTheDisplay :
    decode 0x0100FFFF#32 ≠ .command .refresh ∧ Event.command 0x0100FFFF ≠ .reset ∧ Event.tick ≠ .reset ∧
    (after (.command 0x0100FFFF) booted).fault = false ∧ (after .tick booted).fault = false := by decide
theorem witness_StatusGetReturnsTheStatusWord : ({ booted with cursor := 2, tpend := true } : State).fault = false := by decide
theorem witness_TbInitStartsTheTimebaseOnce :
    State.reset.fault = false ∧ State.reset.tbRun = false ∧ booted.fault = false ∧ booted.tbRun = true := by decide
theorem witness_EnabledTickSetsPending : booted.fault = false ∧ booted.tbRun = true := by decide
theorem witness_EnabledServiceUpdatesTheCounter :
    let s : State := { booted with cfg := fracParams, tpend := true, tbFrac := 124 }
    s.fault = false ∧ s.tpend = true ∧ s.ie = true ∧ s.tbFrac < s.cfg.tbFracMax := by decide
theorem witness_TickSourceStepThatIsNotEnabledIsSkipped :
    State.reset.fault = false ∧ Event.tick.ofTickSource = true ∧ Event.tick.enabled State.reset = false ∧
    booted.fault = false ∧ Event.service.ofTickSource = true ∧ Event.service.enabled booted = false := by decide
theorem witness_TbReadReturnsTheWholeCounter :
    booted.fault = false ∧ booted.tbRun = true ∧ State.reset.fault = false ∧ State.reset.tbRun = false := by decide
/-- Part 3 is the last part and 4 the first that does not exist, with the default parameters. -/
theorem witness_TbReadPartReturnsOnePart :
    booted.fault = false ∧ 3 < booted.cfg.tbWidth / booted.cfg.partW ∧ booted.tbRun = true ∧
    booted.cfg.tbWidth / booted.cfg.partW ≤ 4 ∧ 3 < State.reset.cfg.tbWidth / State.reset.cfg.partW ∧
    State.reset.tbRun = false ∧ State.reset.fault = false := by decide
theorem witness_LongRunCountOfServicedTicks :
    State.reset.fault = false ∧ State.reset.tbRun = false ∧
    Event.reset ∉ [Event.command (encode (.ieSet true)), .tick, .service] := by decide
theorem witness_LaterReadIsEarlierPlusServedGain :
    booted.fault = false ∧ booted.tbRun = true ∧ booted.tbCount.toNat < 2 ^ booted.cfg.tbWidth ∧
    Event.reset ∉ [Event.tick, .service] ∧
    (runEvents [.tick, .service] (after (.command (encode .tbRead)) booted)).fault = false := by decide
/-- The sum of the second clause is below 2^TB_WIDTH on the run of the first. -/
theorem witness_LaterRead_below_the_wrap :
    0 + servedGain [.tick, .service] (after (.command (encode .tbRead)) booted) < 2 ^ booted.cfg.tbWidth := by decide
theorem witness_CounterWrapsWithoutAFault :
    let s : State := { booted with tpend := true, tbCount := 0xFFFFFFFF }
    s.fault = false ∧ s.tpend = true ∧ s.ie = true ∧ s.tbCount.toNat = 2 ^ s.cfg.tbWidth - 1 := by decide
theorem witness_PartsAssembleToTheCounter : (0xFFFFFFFF : Word).toNat < 2 ^ Params.default.tbWidth := by decide
theorem witness_IeSetWritesTheEnable : booted.fault = false := by decide
theorem witness_CriticalSectionHoldsTheCounter :
    let s : State := { booted with ie := false, tpend := true }
    let es : List Event := [.tick, .service, .command (encode (.tbReadPart 0)), .command (encode (.ieSet false))]
    s.ie = false ∧ Event.reset ∉ es ∧ Event.command (encode (.ieSet true)) ∉ es ∧ s.tbRun = true := by decide
theorem witness_CriticalReadEqualsTbRead :
    booted.fault = false ∧ booted.tbRun = true ∧ booted.tbCount.toNat < 2 ^ booted.cfg.tbWidth ∧
    ∀ e ∈ [Event.tick, .service], e.ofTickSource = true := by decide
theorem witness_HeldOffTicksCoalesceIntoOne :
    let s : State := { booted with ie := false }
    s.fault = false ∧ s.tbRun = true ∧ s.ie = false ∧ 1 ≤ 1 := by decide
theorem witness_CommandsFaultExactlyForTheirCauses :
    State.reset.fault = false ∧ State.reset.fcode = .none ∧ ∀ i, decode 0#32 ≠ .command i :=
  ⟨rfl, rfl, fun i h => by rw [show decode 0#32 = .illegal .opcode from by decide] at h; cases h⟩
theorem witness_FaultedBlockAcceptsNothing : faulted.fault = true ∧ Event.service ≠ .reset := by decide
theorem witness_OnlyResetEndsAFault :
    faulted.fault = true ∧ Event.reset ∉ [Event.command 0x10000000, .tick, .service] := by decide
/-- A command that writes the frame, and one that clears IE by a fault. -/
theorem witness_EachElementHasItsOwnWriters :
    exec (.frameSet 0x4000) State.reset = .next { State.reset with frame := 0x4000 } ∧
    exec (.rowGet 3) booted = .next (raiseFault .rowIndex booted) := ⟨by rfl, by rfl⟩
theorem witness_ReadsChangeNothingAndRepeat :
    exec .frameGet booted = .next (deliver 0 booted) ∧ booted.fault = false ∧ (deliver 0 booted).fault = false := by
  exact ⟨rfl, rfl, rfl⟩
theorem witness_EveryStepKeepsTheInvariant : Inv booted ∧ step booted = .next booted :=
  ⟨inv_booted, rfl⟩
theorem witness_TraceOnlyGrowsAndParametersStay : step State.reset = .next State.reset := rfl
/-- Both clauses: a booted block, and one before TB_INIT. -/
theorem witness_DriverIterationShowsTheSelectedFrame :
    1 ≤ 1 ∧ booted.fault = false ∧ booted.tbRun = true ∧ State.reset.fault = false ∧ State.reset.tbRun = false ∧
    ∀ k : Nat, ∀ e ∈ (fun _ => [Event.tick, .service]) k, e.ofTickSource = true := ⟨by decide, rfl, rfl, rfl, rfl, fun _ =>
    show ∀ e ∈ [Event.tick, .service], e.ofTickSource = true by decide⟩

/-- A schedule that ticks and services in turn. -/
def turns (n : Nat) : Event := if n % 2 = 0 then .tick else .service

/-- The states of that run from boot. -/
def turnStates : Nat → State
  | 0 => booted
  | n + 1 => after (turns n) (turnStates n)

theorem turnStates_run (n : Nat) :
    (turnStates n).tbRun = true ∧ (turnStates n).ie = true ∧ (turnStates n).fault = false := by
  induction n with
  | zero => decide
  | succ n ih =>
    obtain ⟨hr, hi, hf⟩ := ih
    simp only [turnStates, turns]
    split
    · rw [after_tick, tickEvent_running hf]
      exact ⟨hr, hi, hf⟩
    · rw [after_service]
      cases h : serviceEnabled (turnStates n)
      · rw [tickService_disabled hf h]
        exact ⟨hr, hi, hf⟩
      · rw [tickService_enabled h]
        exact ⟨hr, hi, hf⟩

theorem witness_FairTicksAreServedAgainAndAgain :
    IsRun turns turnStates ∧ WeaklyFair .tick turns turnStates ∧ WeaklyFair .service turns turnStates ∧
    ∀ m, 0 ≤ m → (turnStates m).tbRun = true ∧ (turnStates m).ie = true ∧ (turnStates m).fault = false :=
  ⟨fun n => perform_eq_after _ _, fun n _ => ⟨2 * n, by omega, by simp [turns]⟩,
    fun n _ => ⟨2 * n + 1, by omega, by simp [turns]⟩, fun m _ => turnStates_run m⟩

end Sys2Proof.Tests
end

/-! # Proofs of the family 10_state.md (O50, O20, O44, O51, O16, O39, O47, O48, O49)

One inversion lemma says what a command can do to a running block (`Executes`), one what an agent's step can do (`Performs`); the
invariant, the writers of each element, the growth of the trace and the count of the cursor are case analyses of these two. -/

/-! ## What decodes is the encoding of its command (30_encoding.md R76, R79) -/

namespace Sys2Proof

theorem Opcode.bits_of_ofBits {b : BitVec 8} {o : Opcode} (h : Opcode.ofBits b = some o) : o.bits = b :=
  beq_iff_eq.mp (List.find?_some (p := fun o : Opcode => o.bits == b) h)

theorem Form.operand?_eq_some {f : Form} {d : BitVec 16} {x : Nat} (h : f.operand? d = some x) :
    d.toNat = x ∧ x < 2 ^ f.operandBits := by
  unfold Form.operand? at h
  split at h
  · cases h
    exact ⟨rfl, ‹_›⟩
  · cases h

/-- Inversion of `decode`: the three checks of R73 have passed, and the command is the opcode's with DATA as its operand. -/
theorem decode_eq_command {w : Word} {i : Instr} (h : decode w = .command i) :
    ∃ o : Opcode, opField w = o.bits ∧ rsvField w = 0 ∧ (dataField w).toNat < 2 ^ o.form.operandBits ∧
      i = o.instr (dataField w).toNat := by
  unfold decode at h
  split at h
  · cases h
  next o ho =>
    split at h
    · cases h
    next hr =>
      split at h
      · cases h
      next x hx =>
        obtain ⟨rfl, hlt⟩ := Form.operand?_eq_some hx
        cases h
        exact ⟨o, (Opcode.bits_of_ofBits ho).symm, not_not.mp hr, hlt, rfl⟩

@[simp] theorem Opcode.opcode_instr (o : Opcode) (x : Nat) : (o.instr x).opcode = o := by cases o <;> rfl

/-- An operand that fits the form's field stands unchanged in DATA (R74). -/
theorem Opcode.data_instr {o : Opcode} {x : Nat} (h : x < 2 ^ o.form.operandBits) : (o.instr x).data = x := by
  cases o
  case frameSet | rowGet | tbReadPart => rfl
  case ieSet =>
    obtain rfl | rfl := Nat.le_one_iff_eq_zero_or_eq_one.mp (Nat.lt_succ_iff.mp h) <;> rfl
  all_goals exact (Nat.lt_one_iff.mp h).symm

theorem encode_of_decode {w : Word} {i : Instr} (h : decode w = .command i) : encode i = w := by
  obtain ⟨o, hop, hrsv, hdata, rfl⟩ := decode_eq_command h
  have hOp : o.bits.toNat = w.toNat / 2 ^ 24 := by rw [← hop, toNat_opField]
  have hRsv : w.toNat / 2 ^ 16 % 2 ^ 8 = 0 := by rw [← toNat_rsvField, hrsv]; rfl
  apply BitVec.eq_of_toNat_eq
  rw [toNat_encode, Opcode.opcode_instr, Opcode.data_instr hdata, toNat_dataField, hOp]
  omega

/-- The five commands that return a value and change no state (20_memory.md R57). -/
def Instr.isRead : Instr → Bool
  | .frameGet | .rowGet _ | .statusGet | .tbRead | .tbReadPart _ => true
  | .frameSet _ | .refresh | .tbInit | .ieSet _ => false

end Sys2Proof

/-! ## What a step can do -/

namespace Sys2Proof.Machine

/-- What performing a command can make of a running block (10_state.md R39). -/
inductive Executes (s : State) : Instr → State → Prop
  /-- A read delivers a value and changes nothing. -/
  | read {i : Instr} (v : Word) (hi : i.isRead = true) : Executes s i (deliver v s)
  /-- A command that finds one of its causes raises a fault. -/
  | fault {i : Instr} (c : FaultCode) (hc : c ≠ .none) : Executes s i (raiseFault c s)
  | frameSet (raw : Nat) :
      Executes s (.frameSet raw) (silent { s with frame := construct s.cfg.toParamValues raw })
  | refresh : Executes s .refresh (silent (refreshStep s))
  | tbInit (hr : s.tbRun = false) :
      Executes s .tbInit (silent { s with tbCount := 0, tbFrac := 0, tpend := false, tbRun := true })
  | ieSet (v : Bool) : Executes s (.ieSet v) (silent { s with ie := v })

/-- Inversion of `exec` on a running block. -/
theorem executes_of_exec {i : Instr} {s t : State} (hf : s.fault = false) (h : exec i s = .next t) : Executes s i t := by
  cases i <;>
    simp only [exec, execFrameSet, execFrameGet, execRowGet, execRefresh, execStatusGet, execTbInit, execTbRead,
      execTbReadPart, execIeSet, accept_running hf] at h
  case frameSet raw =>
    cases h
    exact .frameSet raw
  case frameGet | statusGet =>
    cases h
    exact .read _ rfl
  case rowGet | tbRead =>
    split at h <;> cases h
    · exact .read _ rfl
    · exact .fault _ (by decide)
  case refresh =>
    cases h
    exact .refresh
  case tbInit =>
    split at h <;> cases h
    · exact .fault _ (by decide)
    next hr => exact .tbInit (Bool.eq_false_iff.mpr hr)
  case tbReadPart =>
    split at h
    · cases h
      exact .fault _ (by decide)
    · split at h <;> cases h
      · exact .read _ rfl
      · exact .fault _ (by decide)
  case ieSet v =>
    cases h
    exact .ieSet v

/-- Inversion of `exec`: a faulted block accepts nothing, a running one performs the command. -/
theorem exec_cases {i : Instr} {s t : State} (h : exec i s = .next t) :
    (s.fault = true ∧ t = halted s) ∨ (s.fault = false ∧ Executes s i t) := by
  cases hf : s.fault
  · exact .inr ⟨rfl, executes_of_exec hf h⟩
  · rw [exec_faulted i hf] at h
    cases h
    exact .inl ⟨rfl, rfl⟩

/-- What an agent's step can make of the block (60_exceptions.md R250). -/
inductive Performs (s : State) : Event → State → Prop
  /-- A faulted block accepts nothing but reset (R244). -/
  | halted {e : Event} (hf : s.fault = true) (he : e ≠ .reset) : Performs s e (halted s)
  | command {w : Word} {i : Instr} {t : State} (hf : s.fault = false) (hd : decode w = .command i) (hx : Executes s i t) :
      Performs s (.command w) t
  | illegal {w : Word} {why : Illegal} (hf : s.fault = false) (hd : decode w = .illegal why) :
      Performs s (.command w) (raiseFault .illegalCommand s)
  /-- A step of the tick source that is not enabled. -/
  | skipped {e : Event} (hf : s.fault = false) (he : e.ofTickSource = true) (hn : e.enabled s = false) :
      Performs s e (silent s)
  | tick (hf : s.fault = false) (hr : s.tbRun = true) : Performs s .tick (silent { s with tpend := true })
  | service (hf : s.fault = false) (hp : s.tpend = true) (hi : s.ie = true) : Performs s .service (silent (serviceUpdate s))
  | reset : Performs s .reset (resetInput s)

theorem performs_command {w : Word} {s t : State} (h : commandStep w s = .next t) : Performs s (.command w) t := by
  unfold commandStep at h
  split at h
  next i hd =>
    obtain ⟨hf, rfl⟩ | ⟨hf, hx⟩ := exec_cases h
    · exact .halted hf nofun
    · exact .command hf hd hx
  next why hd =>
    obtain ⟨hf, rfl⟩ | ⟨hf, hb⟩ := accept_next h
    · exact .halted hf nofun
    · cases hb
      exact .illegal hf hd

theorem performs_tick (s : State) : Performs s .tick (tickEvent s) := by
  unfold tickEvent
  obtain ⟨hf, heq⟩ | ⟨hf, hen, heq⟩ | ⟨hf, hen, heq⟩ :=
    ifEnabled_cases (tickEnabled s) s fun s => { s with tpend := true } <;> rw [heq]
  · exact .halted hf nofun
  · exact .tick hf (Bool.and_eq_true_iff.mp hen).1
  · exact .skipped hf rfl hen

theorem performs_service (s : State) : Performs s .service (tickService s) := by
  unfold tickService
  obtain ⟨hf, heq⟩ | ⟨hf, hen, heq⟩ | ⟨hf, hen, heq⟩ := ifEnabled_cases (serviceEnabled s) s serviceUpdate <;> rw [heq]
  · exact .halted hf nofun
  · obtain ⟨hp, hi⟩ := Bool.and_eq_true_iff.mp (Bool.and_eq_true_iff.mp hen).1
    exact .service hf hp hi
  · exact .skipped hf rfl hen

/-- Inversion of `perform`. -/
theorem performs_of_perform {e : Event} {s t : State} (h : perform e s = .next t) : Performs s e t := by
  cases e with
  | command w => exact performs_command h
  | tick =>
    cases h
    exact performs_tick s
  | service =>
    cases h
    exact performs_service s
  | reset =>
    cases h
    exact .reset

theorem performs_after (e : Event) (s : State) : Performs s e (after e s) := performs_of_perform (perform_eq_after e s)

/-- Inversion of `step`: the block waits, or the head of the schedule is performed. -/
theorem step_cases {s t : State} (h : step s = .next t) :
    (s.schedule = [] ∧ t = waitStep s) ∨
    ∃ e rest, s.schedule = e :: rest ∧ Performs { s with schedule := rest } e t := by
  cases hs : s.schedule with
  | nil =>
    simp only [step, takeScheduled, hs] at h
    cases h
    exact .inl ⟨rfl, rfl⟩
  | cons e rest =>
    simp only [step, takeScheduled, hs] at h
    exact .inr ⟨e, rest, rfl, performs_of_perform h⟩

/-- Waiting changes the free output lines of a faulted block and nothing else. -/
theorem waitStep_cases (s : State) :
    (s.fault = true ∧ waitStep s = drawOutputs s) ∨ (s.fault = false ∧ waitStep s = s) := by
  cases hf : s.fault
  · exact .inr ⟨rfl, by simp [waitStep, hf]⟩
  · exact .inl ⟨rfl, by simp [waitStep, hf]⟩

/-! ## The display rules (10_state.md R31, 41_display.md R133) -/

theorem Snapshot.safe_allOff : Snapshot.allOff.Safe := ⟨by decide, by decide⟩

/-- One active row obeys the display rules with any columns. -/
theorem Snapshot.safe_onehot (r : Fin 3) (cols : Vector Bool 5) : Snapshot.Safe ⟨onehot r, cols⟩ where
  atMostOneRow i j hi hj := by
    rw [onehot_getElem, decide_eq_true_eq] at hi hj
    rw [hi, hj]
  noColumnAlone hnone := by
    have hoff := (onehot_getElem r r).symm.trans (hnone r)
    exact absurd rfl (of_decide_eq_false hoff)

/-! ## The invariant is kept by every update of the state -/

theorem Inv.deliver {s : State} (h : Inv s) (v : Word) : Inv (deliver v s) := { h with }

theorem Inv.silent {s : State} (h : Inv s) : Inv (silent s) := { h with }

theorem Inv.withSchedule {s : State} (h : Inv s) (es : List Event) : Inv { s with schedule := es } := { h with }

/-- R31 binds the lines only while FAULT = 0, so a faulted block may draw them freely (60_exceptions.md R243). -/
theorem Inv.drawOutputs {s : State} (h : Inv s) (hf : s.fault = true) : Inv (drawOutputs s) :=
  { h with outputsSafe := fun hrun => nomatch hf.symm.trans hrun }

theorem Inv.halted {s : State} (h : Inv s) (hf : s.fault = true) : Inv (halted s) := h.silent.drawOutputs hf

theorem Inv.raiseFault {s : State} (h : Inv s) {c : FaultCode} (hc : c ≠ .none) : Inv (raiseFault c s) :=
  { h with
    faultMasksTicks := fun _ => rfl
    codeTellsFault := ⟨nofun, fun hcode => absurd hcode hc⟩
    outputsSafe := nofun }

theorem Inv.emit {s : State} (h : Inv s) {rows : Vector Bool 3} {cols : Vector Bool 5} (hsafe : Snapshot.Safe ⟨rows, cols⟩) :
    Inv (emit rows cols s) :=
  { h with
    outputsSafe := fun _ => hsafe
    traceSafe := List.forall_mem_append.mpr ⟨h.traceSafe, List.forall_mem_singleton.mpr hsafe⟩ }

theorem Inv.refreshStep {s : State} (h : Inv s) : Inv (refreshStep s) :=
  { ((h.emit Snapshot.safe_allOff).emit (Snapshot.safe_onehot s.cursor _)).emit (Snapshot.safe_onehot s.cursor _) with }

theorem construct_spare_clear (p : Params) (raw : Nat) {b : Nat} (hb : 15 ≤ b) :
    (construct p.toParamValues raw).getLsbD b = false := by
  rw [construct_eq, BitVec.getLsbD_setWidth, BitVec.getLsbD_of_ge _ _ hb, Bool.and_false]

theorem Inv.frameSet {s : State} (h : Inv s) (raw : Nat) :
    Inv { s with frame := construct s.cfg.toParamValues raw } :=
  { h with frameSpareClear := fun _ hb => construct_spare_clear s.cfg raw hb }

theorem Inv.tbInit {s : State} (h : Inv s) :
    Inv { s with tbCount := 0, tbFrac := 0, tpend := false, tbRun := true } := by
  obtain ⟨-, -, -, -, hmax, -, -⟩ := s.cfg.facts
  exact { h with
    countFits := Nat.two_pow_pos _
    fracBelowMax := fun _ => hmax
    pendingOnlyWhenRunning := nofun }

theorem Inv.ieSet {s : State} (h : Inv s) (hf : s.fault = false) (v : Bool) : Inv { s with ie := v } :=
  { h with faultMasksTicks := fun hfault => nomatch hf.symm.trans hfault }

theorem Inv.setPending {s : State} (h : Inv s) (hr : s.tbRun = true) : Inv { s with tpend := true } :=
  { h with pendingOnlyWhenRunning := fun _ => hr }

/-- A pending tick means TB_INIT has run, so the accumulator the service starts from is below its maximum. -/
theorem Inv.serviceUpdate {s : State} (h : Inv s) : Inv (serviceUpdate s) := by
  obtain ⟨-, -, -, -, -, hinc, -⟩ := s.cfg.facts
  exact { h with
    countFits := by
      rw [serviceUpdate_tbCount, toNat_nextCount]
      exact Nat.mod_lt _ (Nat.two_pow_pos _)
    fracBelowMax := fun hr => nextFrac_lt hinc (h.fracBelowMax hr)
    pendingOnlyWhenRunning := nofun }

/-- Settles O49. -/
theorem resetStateSatisfiesTheInvariant : Obligations.ResetStateSatisfiesTheInvariant where
  frameSpareClear _ _ := BitVec.getLsbD_zero
  countFits := Nat.two_pow_pos _
  fracBelowMax := nofun
  pendingOnlyWhenRunning := nofun
  faultMasksTicks := nofun
  codeTellsFault := ⟨fun _ => rfl, fun _ => rfl⟩
  outputsSafe _ := Snapshot.safe_allOff
  traceSafe := List.forall_mem_singleton.mpr Snapshot.safe_allOff

/-- The reset input differs from the reset state in the counter, the accumulator and the trace (70_reset_and_hazards.md R280). -/
theorem Inv.resetInput {s : State} (h : Inv s) : Inv (resetInput s) :=
  { resetStateSatisfiesTheInvariant with
    countFits := by
      rw [resetInput_tbCount, Params.toNat_cut]
      exact Nat.mod_lt _ (Nat.two_pow_pos _)
    fracBelowMax := nofun
    traceSafe := List.forall_mem_append.mpr ⟨h.traceSafe, List.forall_mem_singleton.mpr Snapshot.safe_allOff⟩ }

theorem Inv.executes {i : Instr} {s t : State} (h : Inv s) (hf : s.fault = false) (hx : Executes s i t) : Inv t := by
  cases hx with
  | read v => exact h.deliver v
  | fault c hc => exact h.raiseFault hc
  | frameSet raw => exact (h.frameSet raw).silent
  | refresh => exact h.refreshStep.silent
  | tbInit => exact h.tbInit.silent
  | ieSet v => exact (h.ieSet hf v).silent

theorem Inv.performs {e : Event} {s t : State} (h : Inv s) (hp : Performs s e t) : Inv t := by
  cases hp with
  | halted hf => exact h.halted hf
  | command hf _ hx => exact h.executes hf hx
  | illegal => exact h.raiseFault (by decide)
  | skipped => exact h.silent
  | tick _ hr => exact (h.setPending hr).silent
  | service => exact h.serviceUpdate.silent
  | reset => exact h.resetInput

theorem Inv.waitStep {s : State} (h : Inv s) : Inv (waitStep s) := by
  obtain ⟨hf, heq⟩ | ⟨-, heq⟩ := waitStep_cases s <;> rw [heq]
  · exact h.drawOutputs hf
  · exact h

/-- Settles O50: a step waits or performs the next event, and each of these is an update that keeps the invariant. -/
theorem everyStepKeepsTheInvariant : Obligations.EveryStepKeepsTheInvariant := by
  intro s t h hstep
  obtain ⟨-, rfl⟩ | ⟨e, rest, -, hp⟩ := step_cases hstep
  · exact h.waitStep
  · exact (h.withSchedule rest).performs hp

/-! ## The output trace only grows (41_display.md R131) -/

/-- t has the parameters of s, and its output trace is that of s or longer. -/
def ExtendsTrace (s t : State) : Prop := t.cfg = s.cfg ∧ ∃ more, t.trace = s.trace ++ more

theorem ExtendsTrace.of_eq {s t : State} (hcfg : t.cfg = s.cfg) (htrace : t.trace = s.trace) : ExtendsTrace s t :=
  ⟨hcfg, [], by rw [htrace, List.append_nil]⟩

theorem extendsTrace_refreshStep (s : State) : ExtendsTrace s (silent (refreshStep s)) :=
  ⟨rfl, _, by rw [silent_trace, refreshStep_trace, List.append_assoc, List.append_assoc]⟩

theorem Executes.extendsTrace {i : Instr} {s t : State} (hx : Executes s i t) : ExtendsTrace s t := by
  cases hx with
  | refresh => exact extendsTrace_refreshStep s
  | read | fault | frameSet | tbInit | ieSet => exact .of_eq rfl rfl

theorem Performs.extendsTrace {e : Event} {s t : State} (hp : Performs s e t) : ExtendsTrace s t := by
  cases hp with
  | command _ _ hx => exact hx.extendsTrace
  | reset => exact ⟨rfl, [Snapshot.allOff], rfl⟩
  | halted | illegal | skipped | tick | service => exact .of_eq rfl rfl

/-- Settles O51: of all steps only REFRESH and reset touch the trace, and both append to it. -/
theorem traceOnlyGrowsAndParametersStay : Obligations.TraceOnlyGrowsAndParametersStay := by
  intro s t hstep
  obtain ⟨-, rfl⟩ | ⟨e, rest, -, hp⟩ := step_cases hstep
  · obtain ⟨-, heq⟩ | ⟨-, heq⟩ := waitStep_cases s <;> rw [heq] <;> exact ExtendsTrace.of_eq rfl rfl
  · exact hp.extendsTrace

/-! ## The writers of each element (10_state.md R39) -/

/-- Settles O44: a faulted block changes only its lines, and each effect of a command on a running one writes what R39 says. -/
theorem eachElementHasItsOwnWriters : Obligations.EachElementHasItsOwnWriters := by
  intro i s t h
  obtain ⟨hf, rfl⟩ | ⟨hf, hx⟩ := exec_cases h
  · simp [hf]
  · cases hx with
    | read | fault | frameSet | refresh | tbInit | ieSet => simp [hf]

/-! ## The cursor counts the REFRESH commands (41_display.md R136, R138) -/

/-- While FAULT = 1 every step but reset leaves the block halted (60_exceptions.md R244). -/
theorem Performs.eq_halted {e : Event} {s t : State} (hp : Performs s e t) (hf : s.fault = true) (he : e ≠ .reset) :
    t = Machine.halted s := by
  cases hp with
  | halted => rfl
  | reset => exact absurd rfl he
  | command hrun | illegal hrun | skipped hrun | tick hrun | service hrun =>
    exact nomatch hrun.symm.trans hf

theorem runEvents_fault_of_fault {es : List Event} {s : State} (hes : .reset ∉ es) (hf : s.fault = true) :
    (runEvents es s).fault = true := by
  induction es generalizing s with
  | nil => exact hf
  | cons e es ih =>
    obtain ⟨he, hes⟩ := not_or.mp (mt List.mem_cons.mpr hes)
    refine ih hes ?_
    rw [(performs_after e s).eq_halted hf (Ne.symm he), halted_fault, hf]

/-- A REFRESH that faults nothing advances the cursor by one row. -/
theorem Performs.cursor_of_refresh {s t : State} (hp : Performs s (.command (encode .refresh)) t) (hf : t.fault = false) :
    t.cursor = nextRow s.cursor := by
  have hrefresh : decode (encode .refresh) = .command .refresh := by decide
  cases hp with
  | halted hs => exact nomatch hs.symm.trans hf
  | skipped _ he => cases he
  | illegal _ hd => cases hd.symm.trans hrefresh
  | command _ hd hx =>
    cases hd.symm.trans hrefresh
    cases hx with
    | read _ hi => cases hi
    | fault => cases hf
    | refresh => rfl

/-- Nothing but REFRESH and reset moves the cursor. -/
theorem Performs.cursor_of_ne_refresh {e : Event} {s t : State} (hp : Performs s e t) (he : e ≠ .reset)
    (hr : e ≠ .command (encode .refresh)) : t.cursor = s.cursor := by
  cases hp with
  | reset => exact absurd rfl he
  | command _ hd hx =>
    cases hx with
    | refresh => exact absurd (congrArg Event.command (encode_of_decode hd).symm) hr
    | read | fault | frameSet | tbInit | ieSet => rfl
  | halted | illegal | skipped | tick | service => rfl

/-- Settles O20, by induction on the list of steps: a run that ends unfaulted was never faulted, so each REFRESH in it counts. -/
theorem cursorCountsRefreshesUnderAnySchedule : Obligations.CursorCountsRefreshesUnderAnySchedule := by
  intro es s hes hend
  induction es generalizing s with
  | nil => exact (Nat.mod_eq_of_lt s.cursor.isLt).symm
  | cons e es ih =>
    obtain ⟨he, hes⟩ := not_or.mp (mt List.mem_cons.mpr hes)
    rw [runEvents] at hend ⊢
    have hf : (after e s).fault = false :=
      Bool.eq_false_iff.mpr fun hf => nomatch hend.symm.trans (runEvents_fault_of_fault hes hf)
    have hp := performs_after e s
    rw [ ih _ hes hend, refreshes]
    by_cases hr : e = .command (encode .refresh)
    · subst hr
      rw [hp.cursor_of_refresh hf, val_nextRow, if_pos (beq_self_eq_true _)]
      omega
    · rw [hp.cursor_of_ne_refresh (Ne.symm he) hr, if_neg (by simpa using hr), Nat.zero_add]

/-! ## Line levels, the fault entry and reset (10_state.md R29, R41; 60_exceptions.md R241; 70_reset_and_hazards.md R280) -/

/-- A line is at its active level exactly when it is logically active. -/
theorem lineLevel_eq_activeLevel_iff (activeLevel act : Bool) : lineLevel activeLevel act = activeLevel ↔ act = true := by
  cases act <;> simp [lineLevel]

/-- Settles O16. -/
theorem dotIsLitWhenBothLinesAreAtTheirActiveLevel : Obligations.DotIsLitWhenBothLinesAreAtTheirActiveLevel := by
  intro s r c
  exact ⟨rfl, rfl, and_congr (lineLevel_eq_activeLevel_iff _ _) (lineLevel_eq_activeLevel_iff _ _)⟩

/-- Settles O39: what `drawOutputs` writes is what `EntersFault` leaves open. -/
theorem raiseFaultEntersTheFailStop : Obligations.RaiseFaultEntersTheFailStop := fun _ _ => rfl

/-- Settles O47. -/
theorem resetStateHasTheValuesOfTheSpec : Obligations.ResetStateHasTheValuesOfTheSpec :=
  ⟨rfl, rfl, rfl, rfl, rfl, rfl, rfl, rfl, rfl⟩

/-- Settles O48. -/
theorem resetInputRestoresTheResetState : Obligations.ResetInputRestoresTheResetState :=
  fun s => ⟨resetInput s, rfl, rfl⟩

end Sys2Proof.Machine

/-! # Proofs of the family 20_memory.md (O7, O21, O32, O45, O46, O15)

O7 and O46 are two uses of one idea: a step is seen through a view of the state that hides something (the schedule; the timebase),
and what is seen does not depend on what is hidden (`KeepsView`). -/

/-! ## A well-formed command's word decodes to the command (30_encoding.md R70, R74, R75) -/

namespace Sys2Proof

theorem Opcode.ofBits_bits (o : Opcode) : Opcode.ofBits o.bits = some o := by cases o <;> rfl

theorem Form.operand?_of_lt {f : Form} {d : BitVec 16} (h : d.toNat < 2 ^ f.operandBits) : f.operand? d = some d.toNat := if_pos h

/-- A word that passes the three checks of R73 decodes to its opcode's command with DATA as the operand. -/
theorem decode_of_fields {w : Word} {o : Opcode} (hop : opField w = o.bits) (hrsv : rsvField w = 0)
    (hdata : (dataField w).toNat < 2 ^ o.form.operandBits) : decode w = .command (o.instr (dataField w).toNat) := by
  simp [decode, hop, Opcode.ofBits_bits, hrsv, Form.operand?_of_lt hdata]

theorem Form.operandBits_le (f : Form) : f.operandBits ≤ 16 := by cases f <;> decide

/-- The operand of a well-formed command fits its field (R74). -/
theorem Instr.data_lt_of_wf {i : Instr} (h : i.wf = true) : i.data < 2 ^ i.opcode.form.operandBits := by
  cases i with
  | frameSet | rowGet | tbReadPart => exact of_decide_eq_true h
  | ieSet v => exact v.toNat_lt
  | frameGet | refresh | statusGet | tbInit | tbRead => exact Nat.one_pos

@[simp] theorem Instr.instr_opcode_data (i : Instr) : i.opcode.instr i.data = i := by
  cases i with
  | ieSet v => cases v <;> rfl
  | frameSet | frameGet | rowGet | refresh | statusGet | tbInit | tbRead | tbReadPart => rfl

theorem decode_encode {i : Instr} (h : i.wf = true) : decode (encode i) = .command i := by
  have hlt := Instr.data_lt_of_wf h
  have hlt16 : i.data < 2 ^ 16 := hlt.trans_le (Nat.pow_le_pow_right Nat.two_pos (Form.operandBits_le _))
  have hop : opField (encode i) = i.opcode.bits := by
    apply BitVec.eq_of_toNat_eq
    rw [toNat_opField, toNat_encode]
    omega
  have hrsv : rsvField (encode i) = 0 := by
    apply BitVec.eq_of_toNat_eq
    rw [toNat_rsvField, toNat_encode]
    change _ = 0
    omega
  have hdata : (dataField (encode i)).toNat = i.data := by
    rw [toNat_dataField, toNat_encode]
    omega
  rw [decode_of_fields hop hrsv (hdata ▸ hlt), hdata, Instr.instr_opcode_data]

end Sys2Proof

namespace Sys2Proof.Machine

/-- The host issues the word of a well-formed command. -/
theorem after_encode {i : Instr} {s t : State} (hwf : i.wf = true) (h : exec i s = .next t) :
    after (.command (encode i)) s = t := after_command (decode_encode hwf) h

theorem exec_frameSet {s : State} (hf : s.fault = false) (raw : Nat) :
    exec (.frameSet raw) s = .next (silent { s with frame := construct s.cfg.toParamValues raw }) := by
  rw [exec, execFrameSet, accept_running hf]

theorem exec_refresh {s : State} (hf : s.fault = false) : exec .refresh s = .next (silent (refreshStep s)) := by
  rw [exec, execRefresh, accept_running hf]

/-! ## Steps seen through a view of the state -/

/-- An outcome whose next state is seen through f. -/
def seenThrough (f : State → State) : Outcome → Outcome
  | .next t => .next (f t)
  | .fault r => .fault r
  | .refused r => .refused r

/-- What f lets be seen of the body's outcome does not depend on what f hides of s. -/
def KeepsView (f : State → State) (body : State → Outcome) (s : State) : Prop :=
  seenThrough f (body (f s)) = seenThrough f (body s)

theorem KeepsView.next {f u : State → State} {s : State} (h : f (u (f s)) = f (u s)) : KeepsView f (fun s => .next (u s)) s :=
  congrArg Host.Outcome.next h

theorem KeepsView.ite {f : State → State} {s : State} {c : State → Prop} [DecidablePred c] {a b : State → Outcome}
    (hc : c (f s) ↔ c s) (ha : KeepsView f a s) (hb : KeepsView f b s) : KeepsView f (fun s => if c s then a s else b s) s := by
  unfold KeepsView at *
  by_cases h : c s
  · simpa [h, hc.mpr h] using ha
  · simpa [h, mt hc.mp h] using hb

theorem KeepsView.accept {f : State → State} {body : State → Outcome} {s : State} (hfault : (f s).fault = s.fault)
    (hhalted : s.fault = true → f (halted (f s)) = f (halted s)) (hbody : s.fault = false → KeepsView f body s) :
    KeepsView f (fun s => accept s body) s := by
  unfold KeepsView at *
  cases hf : s.fault
  · simpa [accept_running, hf, hfault] using hbody hf
  · simp [accept_faulted, hf, hfault, seenThrough, hhalted hf]

theorem KeepsView.ifEnabled {f body : State → State} {en : State → Bool} {s : State} (hfault : (f s).fault = s.fault)
    (hen : en (f s) = en s) (hhalted : f (halted (f s)) = f (halted s)) (hbody : f (silent (body (f s))) = f (silent (body s)))
    (hskip : f (silent (f s)) = f (silent s)) : KeepsView f (fun s => .next (ifEnabled (en s) s body)) s := by
  refine .next ?_
  unfold Machine.ifEnabled
  rw [hfault, hen]
  split
  · exact hhalted
  · split
    · exact hbody
    · exact hskip

/-- A word is decoded without a look at the state, so its step keeps a view that the commands and the illegal words keep. -/
theorem KeepsView.command {f : State → State} {s : State} (w : Word) (hexec : ∀ i, KeepsView f (exec i) s)
    (hillegal : KeepsView f (fun s => Machine.accept s fun s => .next (raiseFault .illegalCommand s)) s) :
    KeepsView f (perform (.command w)) s := by
  unfold KeepsView
  simp only [perform, commandStep]
  cases decode w with
  | command i => exact hexec i
  | illegal => exact hillegal

theorem KeepsView.after {f : State → State} {e : Event} {s : State} (h : KeepsView f (perform e) s) :
    f (after e (f s)) = f (Machine.after e s) := by
  unfold KeepsView at h
  rw [perform_eq_after, perform_eq_after] at h
  exact Host.Outcome.next.inj h

/-! ## The schedule is not read (20_memory.md R59, 60_exceptions.md R250) -/

/-- The state with another schedule. -/
def withSchedule (es : List Event) (s : State) : State := { s with schedule := es }

theorem exec_keepsView_withSchedule (es : List Event) (i : Instr) (s : State) : KeepsView (withSchedule es) (exec i) s := by
  have hhalted : s.fault = true → withSchedule es (halted (withSchedule es s)) = withSchedule es (halted s) := fun _ => rfl
  cases i with
  | frameSet | frameGet | refresh | statusGet | ieSet => exact .accept rfl hhalted fun _ => rfl
  | rowGet idx => exact .accept rfl hhalted fun _ => by unfold KeepsView; cases rowIndex? idx <;> rfl
  | tbInit | tbRead => exact .accept rfl hhalted fun _ => .ite Iff.rfl rfl rfl
  | tbReadPart => exact .accept rfl hhalted fun _ => .ite Iff.rfl rfl (.ite Iff.rfl rfl rfl)

theorem perform_keepsView_withSchedule (es : List Event) (e : Event) (s : State) :
    KeepsView (withSchedule es) (perform e) s := by
  cases e with
  | command w => exact .command w (exec_keepsView_withSchedule es · s) (.accept rfl (fun _ => rfl) fun _ => rfl)
  | tick => exact .ifEnabled (en := tickEnabled) rfl rfl rfl rfl rfl
  | service => exact .ifEnabled (en := serviceEnabled) rfl rfl rfl rfl rfl
  | reset => rfl

theorem Executes.schedule_eq {i : Instr} {s t : State} (hx : Executes s i t) : t.schedule = s.schedule := by
  cases hx with
  | read | fault | frameSet | refresh | tbInit | ieSet => rfl

theorem Performs.schedule_eq {e : Event} {s t : State} (hp : Performs s e t) : t.schedule = s.schedule := by
  cases hp with
  | command _ _ hx => exact hx.schedule_eq
  | halted | illegal | skipped | tick | service | reset => rfl

/-- No agent's step reads or writes the schedule. -/
theorem after_withSchedule (es : List Event) (e : Event) (s : State) :
    after e (withSchedule es s) = withSchedule es (after e s) := by
  have hkept : (after e (withSchedule es s)).schedule = es := (performs_after e _).schedule_eq
  calc after e (withSchedule es s)
      = withSchedule (after e (withSchedule es s)).schedule (after e (withSchedule es s)) := rfl
    _ = withSchedule es (after e (withSchedule es s)) := by rw [hkept]
    _ = withSchedule es (after e s) := (perform_keepsView_withSchedule es e s).after

theorem runEvents_withSchedule (rest es : List Event) (s : State) :
    runEvents es (withSchedule rest s) = withSchedule rest (runEvents es s) := by
  induction es generalizing s with
  | nil => rfl
  | cons e es ih => rw [runEvents, after_withSchedule, ih, runEvents]

theorem step_of_schedule {s : State} {e : Event} {rest : List Event} (h : s.schedule = e :: rest) :
    step s = .next (withSchedule rest (after e s)) := by
  rw [← after_withSchedule, ← perform_eq_after]
  simp only [step, takeScheduled, h, withSchedule]

theorem run_succ_of_step {M : Host.Core} {k : Nat} {s t : M.State} (h : M.step s = .next t) :
    M.run (k + 1) s = M.run k t := by
  rw [Host.Core.run, h]

/-- Settles O7, by induction on the scheduled steps: the machine takes the head and leaves the rest. -/
theorem runOfStepsIsRunOfTheSchedule : Obligations.RunOfStepsIsRunOfTheSchedule := by
  intro es rest s hs
  induction es generalizing s with
  | nil =>
    rw [List.nil_append] at hs
    subst hs
    rfl
  | cons e es ih =>
    calc Sys2Proof.core.run (es.length + 1) s
        = Sys2Proof.core.run es.length (withSchedule (es ++ rest) (after e s)) := run_succ_of_step (step_of_schedule hs)
      _ = .next (withSchedule rest (runEvents es (withSchedule (es ++ rest) (after e s)))) := ih _ rfl
      _ = .next (withSchedule rest (runEvents (e :: es) s)) := by rw [runEvents_withSchedule, runEvents]; rfl

/-! ## The timebase does not reach the rest of the block (20_memory.md R60, 42_timebase.md R166) -/

/-- What the tick source cannot reach: all but the counter, the accumulator, the pending flag, the last result, the count of free
values drawn and the lines of a faulted block. -/
def displayView (s : State) : State :=
  { s with
    tbCount := 0
    tbFrac := 0
    tpend := false
    rowAct := if s.fault then Snapshot.allOff.rows else s.rowAct
    colAct := if s.fault then Snapshot.allOff.cols else s.colAct
    result := none
    draws := 0 }

theorem displayView_halted {s : State} (hf : s.fault = true) :
    displayView (halted (displayView s)) = displayView (halted s) := by simp [displayView, hf]

theorem displayView_raiseFault (c : FaultCode) (s : State) :
    displayView (raiseFault c (displayView s)) = displayView (raiseFault c s) := by simp [displayView]

theorem deliver_keepsView_displayView (u : State → Word) {s : State} (hf : s.fault = false) :
    KeepsView displayView (fun s => .next (deliver (u s) s)) s := .next (by simp [displayView, hf])

theorem exec_keepsView_displayView (i : Instr) (s : State) : KeepsView displayView (exec i) s := by
  have raise (c : FaultCode) : KeepsView displayView (fun s => .next (raiseFault c s)) s := .next (displayView_raiseFault c s)
  cases i with
  | frameGet | statusGet => exact .accept rfl displayView_halted (deliver_keepsView_displayView _)
  | frameSet | refresh | ieSet => exact .accept rfl displayView_halted fun hf => .next (by simp [displayView, hf])
  | rowGet idx =>
    refine .accept rfl displayView_halted fun hf => ?_
    cases rowIndex? idx with
    | some r => exact deliver_keepsView_displayView _ hf
    | none => exact raise _
  | tbInit =>
    exact .accept rfl displayView_halted fun hf => .ite Iff.rfl (raise _) (.next (by simp [displayView, hf]))
  | tbRead =>
    exact .accept rfl displayView_halted fun hf => .ite Iff.rfl (deliver_keepsView_displayView _ hf) (raise _)
  | tbReadPart =>
    exact .accept rfl displayView_halted fun hf =>
      .ite Iff.rfl (raise _) (.ite Iff.rfl (deliver_keepsView_displayView _ hf) (raise _))

/-- Commands and reset do not read what the view hides. -/
theorem displayView_after {e : Event} (he : e.ofTickSource = false) (s : State) :
    displayView (after e (displayView s)) = displayView (after e s) := by
  cases e with
  | command w =>
    exact (KeepsView.command w (exec_keepsView_displayView · s)
      (.accept rfl displayView_halted fun _ => .next (displayView_raiseFault _ s))).after
  | tick | service => cases he
  | reset => rfl

/-- A step of the tick source writes only what the view hides. -/
theorem displayView_after_tickSource {e : Event} (he : e.ofTickSource = true) (s : State) :
    displayView (after e s) = displayView s := by
  have hp := performs_after e s
  generalize after e s = t at hp
  cases hp with
  | halted hf => simp [displayView, hf]
  | skipped | tick | service => rfl
  | command | illegal | reset => cases he

theorem displayView_runEvents (es : List Event) {s u : State} (h : displayView s = displayView u) :
    displayView (runEvents es s) = displayView (runEvents (es.filter fun e => !e.ofTickSource) u) := by
  induction es generalizing s u with
  | nil => exact h
  | cons e es ih =>
    cases he : e.ofTickSource with
    | true =>
      rw [List.filter_cons_of_neg (by simp [he]), runEvents]
      exact ih ((displayView_after_tickSource he s).trans h)
    | false =>
      rw [List.filter_cons_of_pos (by simp [he]), runEvents, runEvents]
      exact ih (by rw [← displayView_after he s, h, displayView_after he u])

theorem displayView_lines {s : State} (hf : s.fault = false) :
    (displayView s).rowAct = s.rowAct ∧ (displayView s).colAct = s.colAct := by simp [displayView, hf]

/-- Settles O46: the two runs end in the same view. -/
theorem tickSourceNeverDisturbsTheDisplay : Obligations.TickSourceNeverDisturbsTheDisplay := by
  intro es s t u
  have hview : displayView t = displayView u := displayView_runEvents es rfl
  have seen {α : Type} (element : State → α) : element (displayView t) = element (displayView u) := congrArg element hview
  have hfault : t.fault = u.fault := seen State.fault
  refine ⟨seen State.frame, seen State.cursor, seen State.trace, seen State.tbRun, seen State.ie, hfault, seen State.fcode,
    fun hf => ?_⟩
  obtain ⟨htrow, htcol⟩ := displayView_lines hf
  obtain ⟨hurow, hucol⟩ := displayView_lines (hfault ▸ hf)
  exact ⟨by rw [← htrow, hview, hurow], by rw [← htcol, hview, hucol]⟩

/-! ## Only REFRESH moves the display (20_memory.md R60, 41_display.md R138) -/

theorem Executes.display_eq {i : Instr} {s t : State} (hx : Executes s i t) (hi : i ≠ .refresh) (hf : t.fault = false) :
    t.cursor = s.cursor ∧ t.rowAct = s.rowAct ∧ t.colAct = s.colAct ∧ t.trace = s.trace := by
  cases hx with
  | refresh => exact absurd rfl hi
  | fault => cases hf
  | read | frameSet | tbInit | ieSet => exact ⟨rfl, rfl, rfl, rfl⟩

/-- Settles O21: of all steps that end unfaulted only REFRESH and reset drive the lines. -/
theorem onlyRefreshMovesTheDisplay : Obligations.OnlyRefreshMovesTheDisplay := by
  intro e s hcmd hreset
  refine ⟨after e s, perform_eq_after e s, fun hf => ?_⟩
  have hp := performs_after e s
  generalize after e s = t at hp hf
  cases hp with
  | halted hs => exact nomatch hs.symm.trans hf
  | command _ hd hx => exact hx.display_eq (fun hi => hcmd _ rfl (hi ▸ hd)) hf
  | illegal => cases hf
  | skipped | tick | service => exact ⟨rfl, rfl, rfl, rfl⟩
  | reset => exact absurd rfl hreset

/-! ## Reads (20_memory.md R57) -/

/-- No command reads the value delivered last. -/
theorem exec_deliver (i : Instr) (v : Word) (s : State) : exec i (deliver v s) = exec i s := by
  cases i with
  | frameSet | frameGet | rowGet | refresh | statusGet | tbInit | tbRead | tbReadPart | ieSet => rfl

theorem Executes.eq_deliver_of_read {i : Instr} {s t : State} (hx : Executes s i t) (hi : i.isRead = true)
    (hf : t.fault = false) : ∃ v, t = deliver v s := by
  cases hx with
  | read v => exact ⟨v, rfl⟩
  | fault => cases hf
  | frameSet | refresh | tbInit | ieSet => cases hi

theorem nextRow_ne (r : Fin 3) : nextRow r ≠ r := by
  revert r
  decide

/-- Settles O45: a read only delivers, and no command reads what was delivered. -/
theorem readsChangeNothingAndRepeat : Obligations.ReadsChangeNothingAndRepeat := by
  refine ⟨fun i s t hs hi h hf => ?_, fun s hs => ⟨_, exec_refresh hs, nextRow_ne s.cursor⟩⟩
  have hread : i.isRead = true := by
    obtain rfl | ⟨_, rfl⟩ | rfl | rfl | ⟨_, rfl⟩ := hi <;> rfl
  obtain ⟨v, rfl⟩ := (executes_of_exec hs h).eq_deliver_of_read hread hf
  exact ⟨rfl, nofun, (exec_deliver i v s).trans h⟩

/-! ## Parts of the counter (20_memory.md R53, 42_timebase.md R168) -/

/-- Part k is digit k of the counter in base 2^PART_W. -/
theorem toNat_countPart (p : Params) (count : Word) (k : Nat) :
    (countPart p.toParamValues count k).toNat = count.toNat / 2 ^ (p.partW * k) % 2 ^ p.partW := by
  obtain ⟨hpart, -, -, hwidth, -⟩ := p.facts
  have hle : 2 ^ p.partW ≤ 2 ^ 32 := Nat.pow_le_pow_right Nat.two_pos (by omega)
  rw [countPart, BitVec.toNat_ofNat, Nat.shiftRight_eq_div_pow,
    Nat.mod_eq_of_lt ((Nat.mod_lt _ (Nat.two_pow_pos _)).trans_le hle)]

/-- The n parts from part k on assemble to the n digits of the counter that start there, in their place. -/
theorem assembleParts_range' (p : Params) (count : Word) (n k : Nat) :
    assembleParts p.toParamValues k ((List.range' k n).map (countPart p.toParamValues count)) =
      count.toNat / 2 ^ (p.partW * k) % 2 ^ (p.partW * n) * 2 ^ (p.partW * k) := by
  induction n generalizing k with
  | zero => simp [assembleParts, Nat.mod_one]
  | succ n ih =>
    rw [List.range'_succ, List.map_cons, assembleParts, ih, toNat_countPart, Nat.shiftLeft_eq, Nat.mul_succ, Nat.mul_succ,
      Nat.add_comm (p.partW * n), Nat.pow_add, Nat.pow_add, Nat.mod_mul, ← Nat.div_div_eq_div_mul]
    ring

/-- Settles O32: the parts are all digits of the counter, NPARTS * PART_W = TB_WIDTH bits. -/
theorem partsAssembleToTheCounter : Obligations.PartsAssembleToTheCounter := by
  intro p count hcount
  obtain ⟨-, hmod, -⟩ := p.facts
  have hwidth : p.partW * p.nparts = p.tbWidth := Nat.mul_div_cancel' (Nat.dvd_of_mod_eq_zero hmod)
  rw [List.range_eq_range', assembleParts_range', hwidth, Nat.mul_zero, Nat.pow_zero, Nat.div_one, Nat.mul_one,
    Nat.mod_eq_of_lt hcount]

/-! ## Two FRAME_SET before a REFRESH (20_memory.md R65) -/

theorem after_frameSet {s : State} (hf : s.fault = false) {raw : Nat} (hraw : raw < 2 ^ 16) :
    after (.command (encode (.frameSet raw))) s = silent { s with frame := construct s.cfg.toParamValues raw } :=
  after_encode (decide_eq_true hraw) (exec_frameSet hf raw)

theorem after_refresh {s : State} (hf : s.fault = false) :
    after (.command (encode .refresh)) s = silent (refreshStep s) := after_encode rfl (exec_refresh hf)

/-- Settles O15: the second FRAME_SET overwrites what the first wrote, and REFRESH reads the frame it finds. -/
theorem lastFrameSetWinsAtTheNextRefresh : Obligations.LastFrameSetWinsAtTheNextRefresh := by
  intro a b s ha hb hf
  simp only [runEvents]
  rw [after_frameSet hf ha, after_frameSet hf hb, after_frameSet (by exact hf) hb, after_refresh (by exact hf)]
  exact ⟨rfl, rfl, rfl, rfl, rfl, rfl, rfl, by simp⟩

end Sys2Proof.Machine

/-! # Proofs of the family 30_encoding.md (O1, O2, O3, O4, O40, O5, O6, O8)

A row of R75 matches a word exactly when the three checks of R73 pass for the row's opcode (`matches_iff_fields`); what decodes, what
matches and what faults are three readings of that. -/

/-! ## Decoding and the rows of the opcode map (30_encoding.md R73 to R76, R79) -/

namespace Sys2Proof

/-- Settles O1. -/
theorem decodeOfEncodeIsIdentity : Obligations.DecodeOfEncodeIsIdentity := fun _ => decode_encode

/-- An operand that fits the form's field makes a well-formed command (R74). -/
theorem Opcode.wf_instr {o : Opcode} {x : Nat} (h : x < 2 ^ o.form.operandBits) : (o.instr x).wf = true := by
  cases o with
  | frameSet | rowGet | tbReadPart => exact decide_eq_true h
  | frameGet | refresh | statusGet | tbInit | tbRead | ieSet => rfl

theorem wf_of_decode {w : Word} {i : Instr} (h : decode w = .command i) : i.wf = true := by
  obtain ⟨o, -, -, hdata, rfl⟩ := decode_eq_command h
  exact Opcode.wf_instr hdata

/-- Settles O2. -/
theorem encodeOfDecodeIsTheWord : Obligations.EncodeOfDecodeIsTheWord :=
  fun _ _ h => ⟨wf_of_decode h, encode_of_decode h⟩

/-- A row matches a word exactly when the word's fields pass the checks of R73 for the row's opcode. -/
theorem matches_iff_fields {r : OpRow} (hr : r ∈ opcodeMap) (w : Word) :
    r.matches w = true ↔ opField w = r.opcode.bits ∧ rsvField w = 0 ∧
      (dataField w).toNat < 2 ^ r.opcode.form.operandBits := by
  rw [matches_iff hr, ← BitVec.toNat_inj, ← BitVec.toNat_inj, toNat_opField, toNat_rsvField, toNat_dataField,
    show (0 : BitVec 8).toNat = 0 from rfl]
  generalize r.opcode.bits.toNat = op
  generalize r.opcode.form = f
  cases f <;> simp only [Form.operandBits] <;> omega

theorem opcodeMap_unmasked : ∀ r ∈ opcodeMap, (~~~r.mask).toNat = 2 ^ r.opcode.form.operandBits - 1 := by decide

/-- Where a row matches, the bits its mask leaves out are the whole of DATA (R75). -/
theorem toNat_unmasked {r : OpRow} (hr : r ∈ opcodeMap) {w : Word}
    (hdata : (dataField w).toNat < 2 ^ r.opcode.form.operandBits) : (w &&& ~~~r.mask).toNat = (dataField w).toNat := by
  rw [BitVec.toNat_and, opcodeMap_unmasked r hr, Nat.and_two_pow_sub_one_eq_mod,
    ← Nat.mod_mod_of_dvd w.toNat (Nat.pow_dvd_pow 2 (Form.operandBits_le _)), ← toNat_dataField, Nat.mod_eq_of_lt hdata]

theorem opcodeMap_bits_injective : ∀ r₁ ∈ opcodeMap, ∀ r₂ ∈ opcodeMap, r₁.opcode.bits = r₂.opcode.bits → r₁ = r₂ := by
  decide

/-- Settles O3: a matching row fixes OP, so only one can match, and decoding passes the same checks. -/
theorem wordIsACommandExactlyWhenARowMatches : Obligations.WordIsACommandExactlyWhenARowMatches := by
  refine ⟨fun w r hr => ⟨fun hm => ?_, fun ⟨i, hd, ho, _⟩ => ?_⟩, fun w r₁ h₁ r₂ h₂ hm₁ hm₂ => ?_⟩
  · obtain ⟨hop, hrsv, hdata⟩ := (matches_iff_fields hr w).mp hm
    refine ⟨_, decode_of_fields hop hrsv hdata, Opcode.opcode_instr _ _, ?_⟩
    rw [Opcode.data_instr hdata, toNat_unmasked hr hdata]
  · obtain ⟨o, hop, hrsv, hdata, rfl⟩ := decode_eq_command hd
    obtain rfl : o = r.opcode := by rwa [Opcode.opcode_instr] at ho
    exact (matches_iff_fields hr w).mpr ⟨hop, hrsv, hdata⟩
  · obtain ⟨hop₁, -⟩ := (matches_iff_fields h₁ w).mp hm₁
    obtain ⟨hop₂, -⟩ := (matches_iff_fields h₂ w).mp hm₂
    exact opcodeMap_bits_injective r₁ h₁ r₂ h₂ (hop₁.symm.trans hop₂)

theorem exists_row (o : Opcode) : ∃ r ∈ opcodeMap, r.opcode = o := by cases o <;> decide

/-- A word that decodes matches the row of its command. -/
theorem exists_matches_of_decode {w : Word} {i : Instr} (h : decode w = .command i) :
    ∃ r ∈ opcodeMap, r.matches w = true := by
  obtain ⟨o, hop, hrsv, hdata, -⟩ := decode_eq_command h
  obtain ⟨r, hr, rfl⟩ := exists_row o
  exact ⟨r, hr, (matches_iff_fields hr w).mpr ⟨hop, hrsv, hdata⟩⟩

/-- Settles O5. -/
theorem wordsOfTheOpcodeMapDecode : Obligations.WordsOfTheOpcodeMapDecode := by
  unfold Obligations.WordsOfTheOpcodeMapDecode
  decide

end Sys2Proof

namespace Sys2Proof.Machine

/-- A running block answers a word that is no command with Fault(ILLEGAL_COMMAND) (R76). -/
theorem perform_of_not_command {w : Word} {s : State} (hf : s.fault = false) (hw : ∀ i, decode w ≠ .command i) :
    perform (.command w) s = .next (raiseFault .illegalCommand s) := by
  cases hd : decode w with
  | command i => exact absurd hd (hw i)
  | illegal why => rw [perform_eq_after, after_illegal hd hf]

/-- Settles O4: what decodes matches a row, so this word does not decode. -/
theorem wordThatMatchesNoRowFaults : Obligations.WordThatMatchesNoRowFaults := by
  intro w s hf hnone
  have hw : ∀ i, decode w ≠ .command i := fun i hd => by
    obtain ⟨r, hr, hm⟩ := exists_matches_of_decode hd
    exact nomatch (hnone r hr).symm.trans hm
  exact ⟨_, perform_of_not_command hf hw, raiseFaultEntersTheFailStop _ _⟩

/-! ## The meanings on a running block, as equations -/

section Running

variable {s : State} (hf : s.fault = false)
include hf

theorem exec_frameGet : exec .frameGet s = .next (deliver s.frame s) := by
  rw [exec, execFrameGet, accept_running hf]

theorem exec_rowGet_of_lt {idx : Nat} (h : idx < 3) :
    exec (.rowGet idx) s = .next (deliver ((chunk s.frame ⟨idx, h⟩).setWidth 32) s) := by
  rw [exec, execRowGet, accept_running hf, rowIndex?_of_lt h]

theorem exec_rowGet_of_ge {idx : Nat} (h : 3 ≤ idx) : exec (.rowGet idx) s = .next (raiseFault .rowIndex s) := by
  rw [exec, execRowGet, accept_running hf, rowIndex?_of_ge h]

theorem exec_statusGet : exec .statusGet s = .next (deliver (statusWord s) s) := by
  rw [exec, execStatusGet, accept_running hf]

theorem exec_tbInit : exec .tbInit s = if s.tbRun = true then .next (raiseFault .reinit s)
    else .next (silent { s with tbCount := 0, tbFrac := 0, tpend := false, tbRun := true }) := by
  rw [exec, execTbInit, accept_running hf]

theorem exec_tbRead : exec .tbRead s = if s.tbRun = true then .next (deliver s.tbCount s)
    else .next (raiseFault .readBeforeInit s) := by
  rw [exec, execTbRead, accept_running hf, withTicksMasked_eq]

theorem exec_tbReadPart (k : Nat) : exec (.tbReadPart k) s =
    if s.cfg.nparts ≤ k then .next (raiseFault .illegalCommand s)
    else if s.tbRun = true then .next (deliver (countPart s.cfg.toParamValues s.tbCount k) s)
    else .next (raiseFault .readBeforeInit s) := by
  rw [exec, execTbReadPart, accept_running hf]

theorem exec_ieSet (v : Bool) : exec (.ieSet v) s = .next (silent { s with ie := v }) := by
  rw [exec, execIeSet, accept_running hf]

end Running

/-! ## Which commands fault, and with which code (60_exceptions.md R242, R245) -/

/-- The outcome is a next state whose FCODE is n, faulted exactly when n is a cause. -/
def EndsWithCode (o : Outcome) (n : BitVec 4) : Prop :=
  ∃ t, o = .next t ∧ t.fcode.number = n ∧ (t.fault = true ↔ t.fcode.number ≠ 0)

theorem EndsWithCode.raise {c : FaultCode} (hc : c.number ≠ 0) (s : State) :
    EndsWithCode (.next (raiseFault c s)) c.number := ⟨_, rfl, rfl, fun _ => hc, fun _ => rfl⟩

theorem EndsWithCode.keep {t : State} (hf : t.fault = false) (hc : t.fcode = .none) : EndsWithCode (.next t) 0 :=
  ⟨t, rfl, by rw [hc]; rfl, by rw [hf, hc]; decide⟩

theorem EndsWithCode.ite {c : Prop} [Decidable c] {a b : Outcome} {m n : BitVec 4} (ha : EndsWithCode a m)
    (hb : EndsWithCode b n) : EndsWithCode (if c then a else b) (if c then m else n) := by
  split
  · exact ha
  · exact hb

/-- Settles O40: each command ends with the code of the first check it fails, in the order of R245, or keeps FCODE = 0. -/
theorem commandsFaultExactlyForTheirCauses : Obligations.CommandsFaultExactlyForTheirCauses := by
  refine ⟨fun i s hf hc => ?_, fun w s hf hw => ⟨_, perform_of_not_command hf hw, rfl, rfl⟩, fun c => ?_⟩
  · cases i with
    | frameSet raw => exact exec_frameSet hf raw ▸ EndsWithCode.keep hf hc
    | frameGet => exact exec_frameGet hf ▸ EndsWithCode.keep hf hc
    | refresh => exact exec_refresh hf ▸ EndsWithCode.keep hf hc
    | statusGet => exact exec_statusGet hf ▸ EndsWithCode.keep hf hc
    | ieSet v => exact exec_ieSet hf v ▸ EndsWithCode.keep hf hc
    | rowGet idx =>
      change EndsWithCode _ (if 3 ≤ idx then 2 else 0)
      by_cases h : 3 ≤ idx
      · rw [if_pos h, exec_rowGet_of_ge hf h]
        exact .raise (by decide) s
      · rw [if_neg h, exec_rowGet_of_lt hf (Nat.not_le.mp h)]
        exact .keep hf hc
    | tbInit => exact exec_tbInit hf ▸ EndsWithCode.ite (.raise (by decide) s) (.keep hf hc)
    | tbRead => exact exec_tbRead hf ▸ EndsWithCode.ite (.keep hf hc) (.raise (by decide) s)
    | tbReadPart k =>
      exact exec_tbReadPart hf k ▸ EndsWithCode.ite (.raise (by decide) s) (.ite (.keep hf hc) (.raise (by decide) s))
  · cases c <;> decide

/-! ## One step of the schedule (30_encoding.md R71, 60_exceptions.md R250) -/

theorem step_eq_perform {s : State} {e : Event} {rest : List Event} (h : s.schedule = e :: rest) :
    step s = perform e { s with schedule := rest } := by simp only [step, takeScheduled, h]

theorem perform_of_command {w : Word} {i : Instr} (hd : decode w = .command i) (s : State) :
    perform (.command w) s = exec i s := by simp only [perform, commandStep, hd]

theorem step_of_nil {s : State} (h : s.schedule = []) : step s = .next (waitStep s) := by
  simp only [step, takeScheduled, h]

/-- Settles O6. -/
theorem stepTakesTheNextScheduledStep : Obligations.StepTakesTheNextScheduledStep := by
  refine ⟨fun s w i rest hs hd => ?_, fun s e rest hs => step_eq_perform hs, fun s hs hf => ?_⟩
  · rw [step_eq_perform hs, perform_of_command hd]
  · rw [step_of_nil hs, waitStep, hf]
    rfl

/-! ## Pseudo-instructions (30_encoding.md R82) -/

/-- The bits of construct(raw) (40_frame.md R100). -/
theorem construct_getLsbD (p : Params) (raw b : Nat) :
    (construct p.toParamValues raw).getLsbD b = (decide (b < 15) && raw.testBit b) := by
  rw [construct_eq, BitVec.getLsbD_setWidth, BitVec.getLsbD_ofNat]
  by_cases h : b < 15
  · simp [h, show b < 32 by omega]
  · simp [h]

/-- Column c of row r is the frame's bit of that dot (20_memory.md R51, 40_frame.md R102). -/
theorem row_getElem_eq_dotBit (f : FrameWord) (r : Fin 3) (c : Fin 5) : (row f r)[c] = f.getLsbD (dotBit r c) := by
  have hc : 4 - c.val < 5 := by omega
  rw [row_getElem, chunk, BitVec.getLsbD_setWidth, BitVec.getLsbD_ushiftRight, decide_eq_true hc, Bool.true_and]
  rfl

/-- Dot d is bit 14 - d of the frame, counted row by row from the top left (R51). -/
theorem dotBit_eq (r : Fin 3) (c : Fin 5) : dotBit r c = 14 - (5 * r.val + c.val) := by
  simp only [dotBit, Config.HEIGHT, Config.WIDTH]
  omega

/-- The raw value FRAME_DOT d stores lights dot d and no other. -/
theorem row_construct_dot (p : Params) {d : Nat} (hd : d < 15) (r : Fin 3) (c : Fin 5) :
    (row (construct p.toParamValues (1 <<< (14 - d))) r)[c] = decide (5 * r.val + c.val = d) := by
  rw [row_getElem_eq_dotBit, construct_getLsbD, dotBit_eq, Nat.one_shiftLeft, Nat.testBit_two_pow, ← Bool.decide_and,
    decide_eq_decide]
  omega

theorem wf_frameSet_dot (d : Nat) : (Instr.frameSet (1 <<< (14 - d))).wf = true := by
  rw [Instr.wf, Nat.one_shiftLeft, decide_eq_true_eq]
  exact Nat.pow_lt_pow_right Nat.one_lt_two (by omega)

/-- Settles O8: the expansions are the table's by definition, and FRAME_DOT stores the one bit of its dot. -/
theorem pseudoInstructionsExpand : Obligations.PseudoInstructionsExpand := by
  refine ⟨fun p b => ⟨rfl, rfl, rfl, rfl, rfl⟩, fun b => by cases b <;> decide, fun p b d s hd hf => ?_⟩
  exact ⟨_, _, rfl, wf_frameSet_dot d, exec_frameSet hf _, row_construct_dot s.cfg hd⟩

end Sys2Proof.Machine

/-! # Proofs of the family 40_frame.md (O9, O10, O11, O12, O13, O14)

The bits of a frame and of its rows are `construct_getLsbD`, `row_getElem` and `row_getElem_eq_dotBit`; the three commands are their
equations on a running block, with what they store or return written in arithmetic. -/

namespace Sys2Proof.Machine

/-! ## Frames, rows and dots (40_frame.md R100 to R104) -/

/-- Settles O9. -/
theorem constructKeepsExactlyTheDotBits : Obligations.ConstructKeepsExactlyTheDotBits := construct_getLsbD

/-- Settles O10. -/
theorem rowIsColumnZeroFirst : Obligations.RowIsColumnZeroFirst :=
  fun f r c => ⟨row_getElem_eq_dotBit f r c, row_getElem f r c⟩

/-- Settles O11: dot k is the one at row k / 5 and column k % 5. -/
theorem singleDotRoundTrip : Obligations.SingleDotRoundTrip := by
  intro p k r c
  rw [row_construct_dot p k.isLt, decide_eq_decide]
  omega

/-! ## The frame commands (40_frame.md R106 to R108) -/

/-- construct masks with 0x7FFF (R106). -/
theorem construct_eq_and (p : Params) (raw : Nat) :
    construct p.toParamValues raw = BitVec.ofNat 32 raw &&& 0x7FFF#32 := by
  apply BitVec.eq_of_toNat_eq
  rw [construct_eq, BitVec.toNat_setWidth, BitVec.toNat_and, BitVec.toNat_ofNat, BitVec.toNat_ofNat,
    show (0x7FFF#32).toNat = 2 ^ 15 - 1 from rfl, Nat.and_two_pow_sub_one_eq_mod]
  omega

/-- Settles O12. -/
theorem frameSetStoresTheMaskedFrame : Obligations.FrameSetStoresTheMaskedFrame := by
  intro raw s hf
  rw [exec_frameSet hf, construct_eq_and]
  rfl

/-- A frame with its spare bits clear is a number of 15 bits (R24). -/
theorem Inv.frame_lt {s : State} (h : Inv s) : s.frame.toNat < 2 ^ 15 :=
  Nat.lt_pow_two_of_testBit _ h.frameSpareClear

/-- Settles O13: the register is held in the width of a result already. -/
theorem frameGetReturnsTheFrame : Obligations.FrameGetReturnsTheFrame := by
  intro s hf
  have hzext : BitVec.ofNat 32 s.frame.toNat = s.frame := by rw [BitVec.ofNat_toNat, BitVec.setWidth_eq]
  rw [hzext]
  exact ⟨exec_frameGet hf, Inv.frame_lt⟩

/-- The chunk as a result, in the raw arithmetic of R101. -/
theorem setWidth_chunk (f : FrameWord) (r : Fin 3) :
    (chunk f r).setWidth 32 = BitVec.ofNat 32 (f.toNat / 2 ^ ((2 - r.val) * 5) % 32) := by
  rw [← BitVec.ofNat_toNat, toNat_chunk]
  rfl

/-- Settles O14. -/
theorem rowGetReturnsTheChunkOrFaults : Obligations.RowGetReturnsTheChunkOrFaults := by
  refine fun idx s hf => ⟨fun hidx => ?_, fun hidx => ?_⟩
  · rw [exec_rowGet_of_lt hf hidx, setWidth_chunk]
    rfl
  · exact ⟨_, exec_rowGet_of_ge hf hidx, raiseFaultEntersTheFailStop _ _⟩

end Sys2Proof.Machine

/-! # Proofs of the family 41_display.md (O19, O17, O18, O22)

REFRESH as one update of the state (`silent_refreshStep`): one visit of the row at the cursor. The scan order is its induction. -/

namespace Sys2Proof.Machine

/-! ## One REFRESH (41_display.md R132, R134, R135) -/

/-- The snapshots of one visit of a row: all off, the row alone, the row with its columns (R132). -/
def visit (f : FrameWord) (r : Fin 3) : List Snapshot :=
  [Snapshot.allOff, ⟨onehot r, Snapshot.allOff.cols⟩, ⟨onehot r, row f r⟩]

theorem refreshStep_trace_eq_visit (s : State) : (refreshStep s).trace = s.trace ++ visit s.frame s.cursor := by
  rw [refreshStep_trace, List.append_assoc, List.append_assoc]
  rfl

/-- The whole effect of REFRESH (R132), the emitted snapshots as one visit. -/
theorem silent_refreshStep (s : State) : silent (refreshStep s) =
    { s with
      rowAct := onehot s.cursor
      colAct := row s.frame s.cursor
      trace := s.trace ++ visit s.frame s.cursor
      cursor := nextRow s.cursor
      result := none } := by
  rw [← refreshStep_trace_eq_visit]
  rfl

theorem onehot_eq_val (r : Fin 3) : onehot r = #v[r.val == 0, r.val == 1, r.val == 2] := by
  revert r
  decide

/-- The columns of a row are the bits of its chunk as a number, the most significant first (40_frame.md R102). -/
theorem row_eq_testBit_chunk (f : FrameWord) (r : Fin 3) :
    row f r = #v[(chunk f r).toNat.testBit 4, (chunk f r).toNat.testBit 3, (chunk f r).toNat.testBit 2,
      (chunk f r).toNat.testBit 1, (chunk f r).toNat.testBit 0] := rfl

/-- Settles O17: the row and its columns at the cursor, in raw arithmetic. -/
theorem refreshEmitsThreeSnapshotsAndAdvances : Obligations.RefreshEmitsThreeSnapshotsAndAdvances := by
  intro s hf
  rw [exec_refresh hf, silent_refreshStep, visit, row_eq_testBit_chunk, toNat_chunk, onehot_eq_val]
  rfl

/-- The dots lit by the third snapshot of a visit are the frame's dots of the visited row (R135, R141). -/
theorem lit_of_visited_row (f : FrameWord) (visited r : Fin 3) (c : Fin 5) :
    Snapshot.lit ⟨onehot visited, row f visited⟩ r c =
      (decide (r = visited) && f.getLsbD (14 - (5 * r.val + c.val))) := by
  rw [Snapshot.lit, onehot_getElem, row_getElem_eq_dotBit, dotBit_eq]
  by_cases h : r = visited
  · rw [h]
  · rw [decide_eq_false h, Bool.false_and, Bool.false_and]

/-- Settles O18. -/
theorem refreshLightsExactlyTheCursorRow : Obligations.RefreshLightsExactlyTheCursorRow :=
  fun s hf => ⟨_, exec_refresh hf, onehot_getElem s.cursor, val_nextRow s.cursor, fun _ => rfl,
    lit_of_visited_row s.frame s.cursor⟩

/-! ## The scan order (41_display.md R136) -/

/-- Settles O19, by induction on the number of REFRESH: the last one visits the row at the cursor the others have left. -/
theorem consecutiveRefreshesVisitTheRowsInOrder : Obligations.ConsecutiveRefreshesVisitTheRowsInOrder := by
  intro n s hf
  induction n with
  | zero => exact ⟨(Nat.mod_eq_of_lt s.cursor.isLt).symm, rfl, hf, (List.append_nil _).symm⟩
  | succ n ih =>
    obtain ⟨hcursor, hframe, hfault, htrace⟩ := ih
    rw [List.replicate_succ', runEvents_append]
    generalize runEvents (List.replicate n _) s = t at hcursor hframe hfault htrace ⊢
    have hrow : t.cursor = Fin.ofNat 3 (s.cursor.val + n) := Fin.ext hcursor
    rw [runEvents, runEvents, after_refresh hfault]
    refine ⟨?_, hframe, hfault, ?_⟩
    · rw [silent_cursor, refreshStep_cursor, val_nextRow, hcursor]
      omega
    · rw [silent_trace, refreshStep_trace_eq_visit, htrace, hframe, hrow, List.range_succ, List.flatMap_append,
        List.flatMap_singleton, List.append_assoc]
      rfl

/-! ## The status word (10_state.md R38, 41_display.md R140) -/

/-- Settles O22: the concatenated flags and cursor are the number with those binary digits (`toNat_statusWord`). -/
theorem statusGetReturnsTheStatusWord : Obligations.StatusGetReturnsTheStatusWord := by
  intro s hf
  rw [exec_statusGet hf, ← toNat_statusWord, BitVec.ofNat_toNat, BitVec.setWidth_eq]
  rfl

end Sys2Proof.Machine

/-! # Proofs of the family 42_timebase.md (O29, O30, O34, O37, O38, O23, O24, O25, O26, O27, O28, O31, O33)

A step of a running timebase serves a tick or keeps the counter (`KeepsTimebase`); what a run of such steps has added to the counter
is one relation between its first and last state (`Advances`), from which the rate and the monotonicity follow. A gap in which only
the tick source acts cannot disturb a masked read (`MaskedAt`). -/

namespace Sys2Proof.Machine

/-! ## The commands of the timebase (42_timebase.md R161, R167, R170) -/

section Running

variable {s : State} (hf : s.fault = false)
include hf

theorem exec_tbInit_of_stopped (hr : s.tbRun = false) :
    exec .tbInit s = .next (silent { s with tbCount := 0, tbFrac := 0, tpend := false, tbRun := true }) := by
  rw [exec_tbInit hf, if_neg (Bool.eq_false_iff.mp hr)]

theorem exec_tbRead_of_running (hr : s.tbRun = true) : exec .tbRead s = .next (deliver s.tbCount s) := by
  rw [exec_tbRead hf, if_pos hr]

theorem exec_tbReadPart_of_running (hr : s.tbRun = true) {k : Nat} (hk : k < s.cfg.nparts) :
    exec (.tbReadPart k) s = .next (deliver (countPart s.cfg.toParamValues s.tbCount k) s) := by
  rw [exec_tbReadPart hf, if_neg (Nat.not_le.mpr hk), if_pos hr]

theorem after_tbRead (hr : s.tbRun = true) : after (.command (encode .tbRead)) s = deliver s.tbCount s :=
  after_encode rfl (exec_tbRead_of_running hf hr)

theorem after_statusGet : after (.command (encode .statusGet)) s = deliver (statusWord s) s :=
  after_encode rfl (exec_statusGet hf)

theorem after_ieSet (v : Bool) : after (.command (encode (.ieSet v))) s = silent { s with ie := v } :=
  after_encode rfl (exec_ieSet hf v)

end Running

/-- Settles O23. -/
theorem tbInitStartsTheTimebaseOnce : Obligations.TbInitStartsTheTimebaseOnce := by
  refine fun s hf => ⟨exec_tbInit_of_stopped hf, fun hr => ⟨_, ?_, raiseFaultEntersTheFailStop _ _⟩⟩
  rw [exec_tbInit hf, if_pos hr]

/-- Settles O27. -/
theorem tbReadReturnsTheWholeCounter : Obligations.TbReadReturnsTheWholeCounter := by
  refine fun s hf => ⟨exec_tbRead_of_running hf, fun hr => ⟨_, ?_, raiseFaultEntersTheFailStop _ _⟩⟩
  rw [exec_tbRead hf, if_neg (Bool.eq_false_iff.mp hr)]

/-- Settles O28: the clauses are the two checks, in the order of 60_exceptions.md R245, and the read. -/
theorem tbReadPartReturnsOnePart : Obligations.TbReadPartReturnsOnePart := by
  refine fun k s hf => ⟨fun hk hr => ?_, fun hk => ⟨_, ?_, raiseFaultEntersTheFailStop _ _⟩,
    fun hk hr => ⟨_, ?_, raiseFaultEntersTheFailStop _ _⟩⟩
  · rw [exec_tbReadPart_of_running hf hr hk, countPart, Nat.shiftRight_eq_div_pow]
    rfl
  · rw [exec_tbReadPart hf]
    exact if_pos hk
  · rw [exec_tbReadPart hf, if_neg (Bool.eq_false_iff.mp hr)]
    exact if_neg (Nat.not_le.mpr hk)

/-! ## One tick and one service (42_timebase.md R163 to R166, R174) -/

/-- Settles O24: the tick source runs, so TPEND is 1 whatever it was. -/
theorem enabledTickSetsPending : Obligations.EnabledTickSetsPending := by
  intro s hf hr
  rw [perform_eq_after, after_tick, tickEvent_running hf, hr, Bool.or_true]

theorem after_tick_of_running {s : State} (hf : s.fault = false) (hr : s.tbRun = true) :
    after .tick s = { s with tpend := true, result := none } :=
  Host.Outcome.next.inj (enabledTickSetsPending s hf hr)

theorem serviceEnabled_iff (s : State) : serviceEnabled s = true ↔ s.tpend = true ∧ s.ie = true ∧ s.fault = false := by
  simp [serviceEnabled, and_assoc]

/-- A service whose three conditions hold updates the counter (R165). -/
theorem perform_service {s : State} (hf : s.fault = false) (hp : s.tpend = true) (hi : s.ie = true) :
    perform .service s = .next (silent (serviceUpdate s)) := by
  rw [perform_eq_after, after_service, tickService_enabled ((serviceEnabled_iff s).mpr ⟨hp, hi, hf⟩)]

theorem after_service_of_enabled {s : State} (h : serviceEnabled s = true) :
    after .service s = silent (serviceUpdate s) := tickService_enabled h

/-- Settles O25. -/
theorem enabledServiceUpdatesTheCounter : Obligations.EnabledServiceUpdatesTheCounter := by
  intro s hf hp hi
  obtain ⟨-, -, -, -, -, hinc, -⟩ := s.cfg.facts
  refine ⟨?_, nextFrac_lt hinc⟩
  rw [perform_service hf hp hi, Nat.add_assoc]
  rfl

/-- Settles O26. -/
theorem tickSourceStepThatIsNotEnabledIsSkipped : Obligations.TickSourceStepThatIsNotEnabledIsSkipped := by
  intro e s hf hsource hn
  cases e with
  | command | reset => cases hsource
  | tick =>
    have hr : s.tbRun = false := by simpa [Event.enabled, tickEnabled, hf] using hn
    refine ⟨?_, fun _ => hr, nofun⟩
    rw [perform_eq_after, after_tick, tickEvent_running hf, hr, Bool.or_false]
  | service =>
    have hoff : s.tpend = false ∨ s.ie = false := by simpa [Event.enabled, serviceEnabled, hf, or_iff_not_imp_left] using hn
    refine ⟨?_, nofun, fun _ => hoff⟩
    rw [perform_eq_after, after_service, tickService_disabled hf hn]
    rfl

/-- Settles O31: the sum exceeds the maximum by the gain, which is below 2^TB_WIDTH. -/
theorem counterWrapsWithoutAFault : Obligations.CounterWrapsWithoutAFault := by
  intro s hf hp hi hmax gain
  obtain ⟨-, -, -, -, -, -, hinc⟩ := s.cfg.facts
  have hgain : gain < 2 ^ s.cfg.tbWidth := by
    change s.cfg.tbInc + (if _ then 1 else 0) < _
    split <;> omega
  refine ⟨_, perform_service hf hp hi, hf, ?_⟩
  rw [silent_tbCount, serviceUpdate_tbCount, toNat_nextCount, hmax]
  change (2 ^ s.cfg.tbWidth - 1 + gain) % 2 ^ s.cfg.tbWidth = _
  split
  next h => rw [h, Nat.add_zero, Nat.mod_eq_of_lt (by omega)]
  next h =>
    rw [show 2 ^ s.cfg.tbWidth - 1 + gain = gain - 1 + 2 ^ s.cfg.tbWidth by omega, Nat.add_mod_right,
      Nat.mod_eq_of_lt (by omega)]

/-- Settles O33, with the example of R171: the counter at 0xFF when part 0 is read. -/
theorem unprotectedPartReadsCanTear : Obligations.UnprotectedPartReadsCanTear :=
  ⟨{ State.reset with tbRun := true, ie := true, tbCount := 0xFF }, by decide⟩

/-! ## Ticks held off by IE = 0 (42_timebase.md R164, 43_interrupt_control.md R204) -/

/-- Any number of ticks but none is as good as one. -/
theorem runEvents_ticks {s : State} (hf : s.fault = false) (hr : s.tbRun = true) (n : Nat) :
    runEvents (List.replicate (n + 1) .tick) s = { s with tpend := true, result := none } := by
  induction n generalizing s with
  | zero => exact after_tick_of_running hf hr
  | succ n ih =>
    rw [List.replicate_succ, runEvents, after_tick_of_running hf hr]
    exact ih hf hr

/-- The first service takes the pending tick, the second finds none. -/
theorem runEvents_service_service {s : State} (h : serviceEnabled s = true) :
    runEvents [.service, .service] s = silent (serviceUpdate s) := by
  obtain ⟨-, -, hf⟩ := (serviceEnabled_iff s).mp h
  calc runEvents [.service, .service] s
      = tickService (tickService s) := rfl
    _ = silent (silent (serviceUpdate s)) := by rw [tickService_enabled h, tickService_disabled (by exact hf) rfl]
    _ = silent (serviceUpdate s) := rfl

/-- Settles O38: the ticks leave one pending, and IE_SET 1 enables its service. -/
theorem heldOffTicksCoalesceIntoOne : Obligations.HeldOffTicksCoalesceIntoOne := by
  intro n s hf hr _ hn
  obtain ⟨n, rfl⟩ := Nat.exists_eq_add_of_le' hn
  rw [runEvents_append, runEvents_ticks hf hr, runEvents, after_ieSet (by exact hf)]
  exact runEvents_service_service ((serviceEnabled_iff _).mpr ⟨rfl, rfl, hf⟩)

/-! ## A step of a running timebase (42_timebase.md R165, R166) -/

/-- t has the parameters of s and its running timebase, in which a tick may have become pending. -/
structure KeepsTimebase (s t : State) : Prop where
  cfg : t.cfg = s.cfg
  tbRun : t.tbRun = true
  tbCount : t.tbCount = s.tbCount
  tbFrac : t.tbFrac = s.tbFrac
  tpend : s.tpend = true → t.tpend = true

theorem Executes.keepsTimebase {i : Instr} {s t : State} (hx : Executes s i t) (hr : s.tbRun = true) : KeepsTimebase s t := by
  cases hx with
  | tbInit hstopped => exact nomatch hstopped.symm.trans hr
  | read | fault | frameSet | refresh | ieSet => exact ⟨rfl, hr, rfl, rfl, id⟩

theorem servesNow_iff (e : Event) (s : State) : servesNow e s = true ↔ e = .service ∧ serviceEnabled s = true := by
  simp [servesNow]

theorem after_of_servesNow {e : Event} {s : State} (h : servesNow e s = true) : after e s = silent (serviceUpdate s) := by
  obtain ⟨rfl, hen⟩ := (servesNow_iff e s).mp h
  exact after_service_of_enabled hen

/-- While TB_RUN = 1 only a service that is taken and the reset input write the counter, the accumulator or the source. -/
theorem keepsTimebase_after {e : Event} {s : State} (he : e ≠ .reset) (hr : s.tbRun = true) (hn : servesNow e s = false) :
    KeepsTimebase s (after e s) := by
  have hp := performs_after e s
  generalize after e s = t at hp
  cases hp with
  | command _ _ hx => exact hx.keepsTimebase hr
  | service hf hp hi => exact nomatch hn.symm.trans ((serviceEnabled_iff s).mpr ⟨hp, hi, hf⟩)
  | reset => exact absurd rfl he
  | tick => exact ⟨rfl, hr, rfl, rfl, fun _ => rfl⟩
  | halted | illegal | skipped => exact ⟨rfl, hr, rfl, rfl, id⟩

/-! ## What a run adds to the counter (42_timebase.md R169, R173) -/

/-- From s to t a running timebase has taken n services, which together added gain to its counter. -/
structure Advances (n gain : Nat) (s t : State) : Prop where
  cfg : t.cfg = s.cfg
  tbRun : t.tbRun = true
  count : t.tbCount.toNat = (s.tbCount.toNat + gain) % 2 ^ s.cfg.tbWidth
  /-- No fraction is lost: counted in units of 1/TB_FRAC_MAX, each service added TB_INC * TB_FRAC_MAX + TB_FRAC_INC. -/
  units : gain * s.cfg.tbFracMax + t.tbFrac = s.tbFrac + n * (s.cfg.tbInc * s.cfg.tbFracMax + s.cfg.tbFracInc)
  frac_lt : s.tbFrac < s.cfg.tbFracMax → t.tbFrac < s.cfg.tbFracMax

theorem Advances.of_keeps {s t : State} (h : KeepsTimebase s t) (hfits : s.tbCount.toNat < 2 ^ s.cfg.tbWidth) :
    Advances 0 0 s t where
  cfg := h.cfg
  tbRun := h.tbRun
  count := by rw [h.tbCount, Nat.add_zero, Nat.mod_eq_of_lt hfits]
  units := by rw [h.tbFrac, Nat.zero_mul, Nat.zero_mul, Nat.zero_add, Nat.add_zero]
  frac_lt hlt := h.tbFrac ▸ hlt

/-- The carry moves TB_FRAC_MAX units from the accumulator to the counter. -/
theorem tickGain_mul_add_nextFrac (p : ParamValues) (frac : Nat) :
    tickGain p frac * p.tbFracMax + nextFrac p frac = frac + (p.tbInc * p.tbFracMax + p.tbFracInc) := by
  unfold tickGain nextFrac tickCarry fracSum
  split
  · rw [Nat.add_mul, Nat.one_mul]
    omega
  · rw [Nat.add_zero, Nat.zero_mul, Nat.sub_zero]
    omega

theorem Advances.of_service {s : State} (hr : s.tbRun = true) :
    Advances 1 (tickGain s.cfg.toParamValues s.tbFrac) s (silent (serviceUpdate s)) where
  cfg := rfl
  tbRun := hr
  count := toNat_nextCount _ _ _
  units := by
    rw [Nat.one_mul]
    exact tickGain_mul_add_nextFrac _ _
  frac_lt := by
    obtain ⟨-, -, -, -, -, hinc, -⟩ := s.cfg.facts
    exact nextFrac_lt hinc

theorem Advances.trans {m n g h : Nat} {s t u : State} (hst : Advances m g s t) (htu : Advances n h t u) :
    Advances (m + n) (g + h) s u where
  cfg := htu.cfg.trans hst.cfg
  tbRun := htu.tbRun
  count := by rw [htu.count, hst.cfg, hst.count, Nat.mod_add_mod, Nat.add_assoc]
  units := by
    have hunits := htu.units
    rw [hst.cfg] at hunits
    linarith [hst.units]
  frac_lt hlt := hst.cfg ▸ htu.frac_lt (hst.cfg ▸ hst.frac_lt hlt)

theorem Advances.count_lt {n gain : Nat} {s t : State} (h : Advances n gain s t) : t.tbCount.toNat < 2 ^ t.cfg.tbWidth := by
  rw [h.count, h.cfg]
  exact Nat.mod_lt _ (Nat.two_pow_pos _)

theorem advances_after {e : Event} {s : State} (he : e ≠ .reset) (hr : s.tbRun = true)
    (hfits : s.tbCount.toNat < 2 ^ s.cfg.tbWidth) :
    Advances (if servesNow e s then 1 else 0) (if servesNow e s then tickGain s.cfg.toParamValues s.tbFrac else 0) s
      (after e s) := by
  cases hn : servesNow e s with
  | true => exact after_of_servesNow hn ▸ .of_service hr
  | false => exact .of_keeps (keepsTimebase_after he hr hn) hfits

/-- By induction on the steps: each serves a tick or keeps the timebase. -/
theorem advances_runEvents {es : List Event} {s : State} (hes : .reset ∉ es) (hr : s.tbRun = true)
    (hfits : s.tbCount.toNat < 2 ^ s.cfg.tbWidth) : Advances (servicesTaken es s) (servedGain es s) s (runEvents es s) := by
  induction es generalizing s with
  | nil => exact .of_keeps ⟨rfl, hr, rfl, rfl, id⟩ hfits
  | cons e es ih =>
    obtain ⟨he, hes⟩ := not_or.mp (mt List.mem_cons.mpr hes)
    have hfirst := advances_after (Ne.symm he) hr hfits
    exact hfirst.trans (ih hes hfirst.tbRun hfirst.count_lt)

/-- The gain of n services from an empty accumulator is their units divided by TB_FRAC_MAX, and the accumulator the remainder. -/
theorem Advances.gain_and_frac {n gain : Nat} {s t : State} (h : Advances n gain s t) (hzero : s.tbFrac = 0) :
    gain = n * s.cfg.tbInc + n * s.cfg.tbFracInc / s.cfg.tbFracMax ∧ t.tbFrac = n * s.cfg.tbFracInc % s.cfg.tbFracMax := by
  obtain ⟨-, -, -, -, hmax, -⟩ := s.cfg.facts
  have hunits : t.tbFrac + s.cfg.tbFracMax * gain = n * s.cfg.tbFracInc + n * s.cfg.tbInc * s.cfg.tbFracMax := by
    linarith [h.units]
  obtain ⟨hdiv, hmod⟩ := (Nat.div_mod_unique hmax).mpr ⟨hunits, h.frac_lt (hzero ▸ hmax)⟩
  rw [Nat.add_mul_div_right _ _ hmax] at hdiv
  rw [Nat.add_mul_mod_self_right] at hmod
  exact ⟨by rw [← hdiv, Nat.add_comm], hmod.symm⟩

/-- Settles O29: TB_INIT empties the accumulator and the counter, and the run advances them. -/
theorem longRunCountOfServicedTicks : Obligations.LongRunCountOfServicedTicks := by
  intro es s hf hr hes s0 t n
  have hs0 : s0 = silent { s with tbCount := 0, tbFrac := 0, tpend := false, tbRun := true } :=
    after_encode rfl (exec_tbInit_of_stopped hf hr)
  have hadv : Advances n (servedGain es s0) s0 t :=
    advances_runEvents hes (by rw [hs0]; rfl) (by rw [hs0]; exact Nat.two_pow_pos _)
  obtain ⟨hgain, hfrac⟩ := hadv.gain_and_frac (by rw [hs0]; rfl)
  have hcfg : s0.cfg = s.cfg := by rw [hs0]; rfl
  have hcount : s0.tbCount.toNat = 0 := by rw [hs0]; rfl
  rw [← hcfg]
  exact ⟨by rw [hadv.count, hcount, Nat.zero_add, hgain], hfrac⟩

/-- Settles O30. -/
theorem laterReadIsEarlierPlusServedGain : Obligations.LaterReadIsEarlierPlusServedGain := by
  intro es s hf hr hfits hes hend s1 s2 d
  have hs1 : s1 = deliver s.tbCount s := after_tbRead hf hr
  have hadv : Advances (servicesTaken es s1) d s1 (runEvents es s1) :=
    advances_runEvents hes (by rw [hs1]; exact hr) (by rw [hs1]; exact hfits)
  have hs2 : s2 = deliver (runEvents es s1).tbCount (runEvents es s1) := after_tbRead hend hadv.tbRun
  have hcount : (runEvents es s1).tbCount.toNat = (s.tbCount.toNat + d) % 2 ^ s.cfg.tbWidth := by
    rw [hadv.count, hs1]
    rfl
  refine ⟨s.tbCount, (runEvents es s1).tbCount, by rw [hs1]; rfl, by rw [hs2]; rfl, hcount, fun hlt => ?_⟩
  rw [hcount, Nat.mod_eq_of_lt hlt]
  exact Nat.le_add_right _ _

/-! ## A fair tick source (60_exceptions.md R250) -/

theorem isRun_after {sched : Nat → Event} {st : Nat → State} (hrun : IsRun sched st) (n : Nat) :
    st (n + 1) = after (sched n) (st n) :=
  (Host.Outcome.next.inj ((perform_eq_after _ _).symm.trans (hrun n))).symm

/-- A pending tick stays pending until it is served or the source is off. -/
theorem tpend_after {e : Event} {s : State} (hr : s.tbRun = true) (hr' : (after e s).tbRun = true)
    (hn : servesNow e s = false) (hp : s.tpend = true) : (after e s).tpend = true := by
  have he : e ≠ .reset := by
    rintro rfl
    cases hr'
  exact (keepsTimebase_after he hr hn).tpend hp

/-- Settles O34. The tick is always enabled, so one comes; were no service taken after it, it would stay pending, the service would
stay enabled, and fairness would bring it. -/
theorem fairTicksAreServedAgainAndAgain : Obligations.FairTicksAreServedAgainAndAgain := by
  intro sched st hrun htick hservice n hlive
  obtain ⟨k, hnk, hk⟩ : ∃ k, n ≤ k ∧ sched k = .tick := htick n fun m hm => by
    obtain ⟨hr, -, hf⟩ := hlive m hm
    simp [Event.enabled, tickEnabled, hr, hf]
  by_contra hnever
  have hskip : ∀ m, n ≤ m → servesNow (sched m) (st m) = false := fun m hm =>
    Bool.eq_false_iff.mpr fun h => hnever ⟨m, hm, h⟩
  have hpend : ∀ m, k + 1 ≤ m → (st m).tpend = true := fun m hm => by
    induction m, hm using Nat.le_induction with
    | base =>
      obtain ⟨hr, -, hf⟩ := hlive k hnk
      rw [isRun_after hrun, hk, after_tick_of_running hf hr]
    | succ m hm ih =>
      obtain ⟨hr, -⟩ := hlive m (by omega)
      obtain ⟨hr', -⟩ := hlive (m + 1) (by omega)
      rw [isRun_after hrun] at hr' ⊢
      exact tpend_after hr hr' (hskip m (by omega)) ih
  have henabled : ∀ m, k + 1 ≤ m → serviceEnabled (st m) = true := fun m hm => by
    obtain ⟨-, hi, hf⟩ := hlive m (by omega)
    exact (serviceEnabled_iff _).mpr ⟨hpend m hm, hi, hf⟩
  obtain ⟨m, hm, hsched⟩ := hservice (k + 1) henabled
  exact hnever ⟨m, by omega, (servesNow_iff _ _).mpr ⟨hsched, henabled m hm⟩⟩

/-! ## Commands with gaps in which only the tick source acts (20_memory.md R59, R60) -/

theorem withGaps_append (gaps : Nat → List Event) (k : Nat) (a b : List Instr) :
    withGaps gaps k (a ++ b) = withGaps gaps k a ++ withGaps gaps (k + a.length) b := by
  induction a generalizing k with
  | nil => rfl
  | cons i a ih =>
    rw [List.cons_append, withGaps, withGaps, ih, List.length_cons, Nat.add_comm a.length, Nat.add_assoc, List.append_assoc,
      List.cons_append]

/-- The state after gap k and the command that follows it. -/
def afterGap (gaps : Nat → List Event) (k : Nat) (i : Instr) (s : State) : State :=
  after (.command (encode i)) (runEvents (gaps k) s)

theorem runEvents_withGaps_cons (gaps : Nat → List Event) (k : Nat) (i : Instr) (is : List Instr) (s : State) :
    runEvents (withGaps gaps k (i :: is)) s = runEvents (withGaps gaps (k + 1) is) (afterGap gaps k i s) := by
  rw [withGaps, runEvents_append, runEvents, afterGap]

theorem result_after_tickSource {e : Event} (he : e.ofTickSource = true) (s : State) : (after e s).result = none := by
  have hp := performs_after e s
  generalize after e s = t at hp
  cases hp with
  | halted | skipped | tick | service => rfl
  | command | illegal | reset => cases he

/-- The tick source delivers nothing to the host. -/
theorem returned_tickSource {es : List Event} (hes : ∀ e ∈ es, e.ofTickSource = true) (s : State) : returned es s = [] := by
  induction es generalizing s with
  | nil => rfl
  | cons e es ih =>
    obtain ⟨he, hes⟩ := List.forall_mem_cons.mp hes
    rw [returned, result_after_tickSource he, ih hes]
    rfl

theorem returned_withGaps_cons {gaps : Nat → List Event} {k : Nat} (hgap : ∀ e ∈ gaps k, e.ofTickSource = true) (i : Instr)
    (is : List Instr) (s : State) : returned (withGaps gaps k (i :: is)) s =
      (afterGap gaps k i s).result.toList ++ returned (withGaps gaps (k + 1) is) (afterGap gaps k i s) := by
  rw [withGaps, returned_append, returned_tickSource hgap, List.nil_append, returned, afterGap]

theorem displayView_runEvents_tickSource {es : List Event} (hes : ∀ e ∈ es, e.ofTickSource = true) (s : State) :
    displayView (runEvents es s) = displayView s := by
  have hnone : (es.filter fun e => !e.ofTickSource) = [] := List.filter_eq_nil_iff.mpr fun e he => by simp [hes e he]
  rw [displayView_runEvents es rfl, hnone, runEvents]

theorem reset_notMem_of_tickSource {es : List Event} (hes : ∀ e ∈ es, e.ofTickSource = true) : .reset ∉ es :=
  fun h => nomatch hes _ h

/-! ## The multi-part read TB_READ_CS (42_timebase.md R168, 43_interrupt_control.md R203) -/

/-- A running, unfaulted block with the given parameters and IE. -/
structure RunningWith (p : Params) (ie : Bool) (s : State) : Prop where
  cfg : s.cfg = p
  ie : s.ie = ie
  fault : s.fault = false
  tbRun : s.tbRun = true

theorem RunningWith.gap {p : Params} {ie : Bool} {es : List Event} {s : State} (h : RunningWith p ie s)
    (hes : ∀ e ∈ es, e.ofTickSource = true) : RunningWith p ie (runEvents es s) := by
  have seen {α : Type} (element : State → α) : element (displayView (runEvents es s)) = element (displayView s) :=
    congrArg element (displayView_runEvents_tickSource hes s)
  exact ⟨(seen State.cfg).trans h.cfg, (seen State.ie).trans h.ie, (seen State.fault).trans h.fault,
    (seen State.tbRun).trans h.tbRun⟩

/-- A critical section of a running block: IE is 0 and the counter is c. -/
structure MaskedAt (p : Params) (c : Word) (s : State) : Prop extends RunningWith p false s where
  tbCount : s.tbCount = c

/-- In a critical section no service is taken, so the tick source does not move the counter (R202). -/
theorem MaskedAt.gap {p : Params} {c : Word} {es : List Event} {s : State} (h : MaskedAt p c s)
    (hes : ∀ e ∈ es, e.ofTickSource = true) : MaskedAt p c (runEvents es s) := by
  induction es generalizing s with
  | nil => exact h
  | cons e es ih =>
    obtain ⟨he, hes⟩ := List.forall_mem_cons.mp hes
    have hrun : RunningWith p false (after e s) := h.toRunningWith.gap (List.forall_mem_singleton.mpr he)
    have hreset : e ≠ .reset := fun hreset => nomatch hreset ▸ he
    have hn : servesNow e s = false := by simp [servesNow, serviceEnabled, h.ie]
    exact ih { hrun with tbCount := (keepsTimebase_after hreset h.tbRun hn).tbCount.trans h.tbCount } hes

theorem nparts_le (p : Params) : p.nparts ≤ 32 := by
  obtain ⟨-, -, -, hwidth, -⟩ := p.facts
  exact (Nat.div_le_self _ _).trans hwidth

theorem after_tbReadPart {s : State} (hf : s.fault = false) (hr : s.tbRun = true) {k : Nat} (hk : k < s.cfg.nparts) :
    after (.command (encode (.tbReadPart k))) s = deliver (countPart s.cfg.toParamValues s.tbCount k) s := by
  have hwf : (Instr.tbReadPart k).wf = true := decide_eq_true (by have := nparts_le s.cfg; omega)
  exact after_encode hwf (exec_tbReadPart_of_running hf hr hk)

theorem savedIe_statusWord (s : State) : savedIe (statusWord s) = s.ie := by
  unfold savedIe statusWord
  generalize s.cursor = c
  generalize s.tbRun = r
  generalize s.tpend = p
  generalize s.ie = i
  revert c r p i
  decide

section Gaps

variable {gaps : Nat → List Event} (hgaps : ∀ k, ∀ e ∈ gaps k, e.ofTickSource = true)
include hgaps

/-- With the ticks masked, the parts read are all parts of the one counter value, whatever ticks come between. -/
theorem MaskedAt.readParts {p : Params} {c : Word} {s : State} (h : MaskedAt p c s) {ks : List Nat}
    (hks : ∀ k ∈ ks, k < p.nparts) (j : Nat) :
    MaskedAt p c (runEvents (withGaps gaps j (ks.map .tbReadPart)) s) ∧
    returned (withGaps gaps j (ks.map .tbReadPart)) s = ks.map (countPart p.toParamValues c) := by
  induction ks generalizing s j with
  | nil => exact ⟨h, rfl⟩
  | cons k ks ih =>
    obtain ⟨hk, hks⟩ := List.forall_mem_cons.mp hks
    have hgap := h.gap (hgaps j)
    have hread : afterGap gaps j (.tbReadPart k) s = deliver (countPart p.toParamValues c k) (runEvents (gaps j) s) := by
      rw [afterGap, after_tbReadPart hgap.fault hgap.tbRun (hgap.cfg ▸ hk), hgap.cfg, hgap.tbCount]
    have hmasked : MaskedAt p c (afterGap gaps j (.tbReadPart k) s) := hread ▸ { hgap with }
    obtain ⟨hend, hreturned⟩ := ih hmasked hks (j + 1)
    rw [List.map_cons, runEvents_withGaps_cons, returned_withGaps_cons (hgaps j), hreturned, hread]
    exact ⟨hread ▸ hend, rfl⟩

theorem RunningWith.afterGap_ieSet {p : Params} {ie : Bool} {s : State} (h : RunningWith p ie s) (j : Nat) (v : Bool) :
    RunningWith p v (afterGap gaps j (.ieSet v) s) ∧
    (afterGap gaps j (.ieSet v) s).tbCount = (runEvents (gaps j) s).tbCount ∧ (afterGap gaps j (.ieSet v) s).result = none := by
  have hgap := h.gap (hgaps j)
  rw [afterGap, after_ieSet hgap.fault]
  exact ⟨⟨hgap.cfg, rfl, hgap.fault, hgap.tbRun⟩, rfl, rfl⟩

/-- IE_SET 0 and every part: the parts are those of the counter as IE_SET 0 finds it, and the counter keeps that value. -/
theorem RunningWith.maskedRead {p : Params} {ie : Bool} {s : State} (h : RunningWith p ie s) (j : Nat) :
    MaskedAt p (runEvents (gaps j) s).tbCount (runEvents (withGaps gaps j (criticalRead p.toParamValues)) s) ∧
    returned (withGaps gaps j (criticalRead p.toParamValues)) s =
      (List.range p.nparts).map (countPart p.toParamValues (runEvents (gaps j) s).tbCount) := by
  obtain ⟨hentry, hcount, hnone⟩ := h.afterGap_ieSet hgaps j false
  rw [criticalRead, runEvents_withGaps_cons, returned_withGaps_cons (hgaps j), hnone]
  exact (MaskedAt.mk hentry hcount).readParts hgaps (fun _ => List.mem_range.mp) (j + 1)

/-- The critical section around the parts ends with the last IE_SET, which neither moves the counter nor returns anything. -/
theorem RunningWith.criticalSection {p : Params} {ie : Bool} {s : State} (h : RunningWith p ie s) (j : Nat) (saved : Bool) :
    let es := withGaps gaps j (criticalRead p.toParamValues ++ [.ieSet saved])
    RunningWith p saved (runEvents es s) ∧ (runEvents es s).tbCount = (runEvents (gaps j) s).tbCount ∧
    returned es s = (List.range p.nparts).map (countPart p.toParamValues (runEvents (gaps j) s).tbCount) := by
  intro es
  obtain ⟨hmasked, hparts⟩ := h.maskedRead hgaps j
  obtain ⟨hexit, hcount, hnone⟩ :=
    hmasked.toRunningWith.afterGap_ieSet hgaps (j + (criticalRead p.toParamValues).length) saved
  simp only [es]
  rw [withGaps_append, runEvents_append, returned_append, hparts, runEvents_withGaps_cons, returned_withGaps_cons (hgaps _), hnone]
  exact ⟨hexit, hcount.trans (hmasked.gap (hgaps _)).tbCount, List.append_nil _⟩

end Gaps

/-- Settles O37: the parts are those of the counter as the IE_SET 0 after gap 1 finds it, and the saved bit is IE as STATUS_GET
found it. -/
theorem criticalReadEqualsTbRead : Obligations.CriticalReadEqualsTbRead := by
  intro s gaps hf hr hfits hgaps
  have hgap : RunningWith s.cfg s.ie (runEvents (gaps 0) s) := .gap ⟨rfl, rfl, hf, hr⟩ (hgaps 0)
  have hstatus : afterGap gaps 0 .statusGet s = deliver (statusWord (runEvents (gaps 0) s)) (runEvents (gaps 0) s) :=
    after_statusGet hgap.fault
  have hsaved : savedIe (statusWord (runEvents (gaps 0) s)) = s.ie := (savedIe_statusWord _).trans hgap.ie
  have hread : RunningWith s.cfg s.ie (afterGap gaps 0 .statusGet s) := hstatus ▸ { hgap with }
  refine ⟨statusWord (runEvents (gaps 0) s), by rw [runEvents_withGaps_cons, hstatus]; rfl, ?_⟩
  intro es u t
  have hes : es = withGaps gaps 0 (.statusGet :: (criticalRead s.cfg.toParamValues ++ [.ieSet s.ie])) := by
    rw [← hsaved]
    rfl
  have hu : u = runEvents (gaps 1) (afterGap gaps 0 .statusGet s) :=
    (runEvents_append _ _ s).trans (congrArg (runEvents (gaps 1)) (runEvents_withGaps_cons gaps 0 .statusGet [] s))
  have hurun : RunningWith s.cfg s.ie u := hu ▸ hread.gap (hgaps 1)
  have hufits : u.tbCount.toNat < 2 ^ s.cfg.tbWidth := by
    rw [← hurun.cfg]
    refine (advances_runEvents (es := withGaps gaps 0 [.statusGet] ++ gaps 1) ?_ hr hfits).count_lt
    simp [withGaps, reset_notMem_of_tickSource (hgaps _)]
  obtain ⟨hend, hcount, hparts⟩ := hread.criticalSection hgaps 1 s.ie
  have ht : t = runEvents es s := rfl
  rw [← hu] at hcount hparts
  rw [hes, returned_withGaps_cons (hgaps 0), hparts, hstatus, deliver_result, Option.toList_some, List.singleton_append,
    List.tail_cons, partsAssembleToTheCounter s.cfg _ hufits, BitVec.ofNat_toNat, BitVec.setWidth_eq, ht, hes,
    runEvents_withGaps_cons]
  exact ⟨exec_tbRead_of_running hurun.fault hurun.tbRun, rfl, hcount, hend.ie, hend.fault⟩

end Sys2Proof.Machine

/-! # Proofs of the family 43_interrupt_control.md (O36, O35)

Only IE_SET 1 sets IE, so in a critical section IE stays 0, no step serves a tick, and a running counter is kept
(`keepsTimebase_after`). -/

namespace Sys2Proof.Machine

/-! ## IE_SET (43_interrupt_control.md R201) -/

/-- Settles O35. -/
theorem ieSetWritesTheEnable : Obligations.IeSetWritesTheEnable := fun v _ hf => exec_ieSet hf v

/-! ## Critical sections (43_interrupt_control.md R202) -/

theorem Executes.ie_eq_false {i : Instr} {s t : State} (hx : Executes s i t) (hi : i ≠ .ieSet true) (hie : s.ie = false) :
    t.ie = false := by
  cases hx with
  | ieSet v =>
    cases v with
    | false => rfl
    | true => exact absurd rfl hi
  | fault => rfl
  | read | frameSet | refresh | tbInit => exact hie

/-- No step but the command IE_SET 1 sets IE; a fault and the reset input clear it (10_state.md R39). -/
theorem ie_after_eq_false {e : Event} {s : State} (he : e ≠ .command (encode (.ieSet true))) (hie : s.ie = false) :
    (after e s).ie = false := by
  have hp := performs_after e s
  generalize after e s = t at hp
  cases hp with
  | command _ hd hx =>
    refine hx.ie_eq_false (fun hi => he ?_) hie
    rw [← hi, encode_of_decode hd]
  | illegal | reset => rfl
  | halted | skipped | tick | service => exact hie

theorem servesNow_eq_false_of_ie {s : State} (hie : s.ie = false) (e : Event) : servesNow e s = false := by
  simp [servesNow, serviceEnabled, hie]

/-- No service is taken from IE = 0 on while no step is IE_SET 1; a reset among the steps would clear IE again. -/
theorem servicesTaken_eq_zero_of_ie {es : List Event} {s : State} (hie : s.ie = false)
    (hset : .command (encode (.ieSet true)) ∉ es) : servicesTaken es s = 0 := by
  induction es generalizing s with
  | nil => rfl
  | cons e es ih =>
    obtain ⟨he, hset⟩ := not_or.mp (mt List.mem_cons.mpr hset)
    have hrest : servicesTaken es (after e s) = 0 := ih (ie_after_eq_false (Ne.symm he) hie) hset
    rw [servicesTaken, servesNow_eq_false_of_ie hie, hrest]
    rfl

/-- By induction on the steps: one that is no reset and takes no service keeps a running timebase. -/
theorem tbCount_runEvents_of_unserved {es : List Event} {s : State} (hes : .reset ∉ es) (hnone : servicesTaken es s = 0)
    (hr : s.tbRun = true) : (runEvents es s).tbCount = s.tbCount := by
  induction es generalizing s with
  | nil => rfl
  | cons e es ih =>
    obtain ⟨he, hes⟩ := not_or.mp (mt List.mem_cons.mpr hes)
    obtain ⟨hfirst, hrest⟩ := Nat.add_eq_zero_iff.mp hnone
    have hn : servesNow e s = false := by simpa using hfirst
    have hkeeps : KeepsTimebase s (after e s) := keepsTimebase_after (Ne.symm he) hr hn
    exact (ih hes hrest hkeeps.tbRun).trans hkeeps.tbCount

/-- Settles O36: no service is taken, and without one a running counter is kept. -/
theorem criticalSectionHoldsTheCounter : Obligations.CriticalSectionHoldsTheCounter := fun _ _ hie hes hset =>
  have hnone := servicesTaken_eq_zero_of_ie hie hset
  ⟨hnone, tbCount_runEvents_of_unserved hes hnone⟩

end Sys2Proof.Machine

/-! # Proofs of the family 44_collaborators.md (O53, O52)

The driver's iteration is one run of three commands with gaps in which only the tick source acts. What that run shows is what
the three commands alone show (`tickSourceNeverDisturbsTheDisplay`), so no gap is walked through. -/

namespace Sys2Proof.Machine

/-! ## The animation table (44_collaborators.md R221, R222) -/

/-- Settles O52: the raw value of frame i is the two shifted ones, and both bits are below 15. -/
theorem animationFramesArePointSymmetric : Obligations.AnimationFramesArePointSymmetric := by
  refine fun p => ⟨fun i b => ?_, fun i => ?_, ?_⟩
  · rw [anim, construct_getLsbD, Nat.testBit_or, Nat.one_shiftLeft, Nat.one_shiftLeft, Nat.testBit_two_pow,
      Nat.testBit_two_pow, ← Bool.decide_or, ← Bool.decide_and, decide_eq_decide]
    omega
  · rw [Fin.ext_iff, show (7 : Fin 15).val = 7 from rfl]
    omega
  · rw [anim, construct_eq]
    decide

/-! ## Frames as operands of FRAME_SET (40_frame.md R100, R106) -/

theorem toNat_construct_lt (p : Params) (raw : Nat) : (construct p.toParamValues raw).toNat < 2 ^ 15 :=
  Nat.lt_pow_two_of_testBit _ fun _ hb => construct_spare_clear p raw hb

/-- A constructed frame, stored by FRAME_SET, is that frame again. -/
theorem construct_toNat_construct (p : Params) (raw : Nat) :
    construct p.toParamValues (construct p.toParamValues raw).toNat = construct p.toParamValues raw := by
  apply BitVec.eq_of_getLsbD_eq
  intro b _
  rw [construct_getLsbD, BitVec.testBit_toNat, construct_getLsbD, ← Bool.and_assoc, Bool.and_self]

/-! ## Gaps in which only the tick source acts (20_memory.md R60) -/

theorem filter_gap {es : List Event} (hes : ∀ e ∈ es, e.ofTickSource = true) :
    (es.filter fun e => !e.ofTickSource) = [] := List.filter_eq_nil_iff.mpr fun e he => by simp [hes e he]

/-- Without the tick source's steps, a list of commands with gaps is the commands alone. -/
theorem filter_withGaps {gaps : Nat → List Event} (hgaps : ∀ k, ∀ e ∈ gaps k, e.ofTickSource = true) (k : Nat)
    (is : List Instr) :
    ((withGaps gaps k is).filter fun e => !e.ofTickSource) = is.map fun i => .command (encode i) := by
  induction is generalizing k with
  | nil => rfl
  | cons i is ih =>
    rw [withGaps, List.filter_append, filter_gap (hgaps k), List.nil_append, List.filter_cons_of_pos rfl, ih, List.map_cons]

theorem runEvents_gap_keeps {es : List Event} (hes : ∀ e ∈ es, e.ofTickSource = true) (s : State) :
    (runEvents es s).fault = s.fault ∧ (runEvents es s).tbRun = s.tbRun ∧ (runEvents es s).frame = s.frame ∧
    (runEvents es s).trace = s.trace := by
  have seen {α : Type} (element : State → α) : element (displayView (runEvents es s)) = element (displayView s) :=
    congrArg element (displayView_runEvents_tickSource hes s)
  exact ⟨seen State.fault, seen State.tbRun, seen State.frame, seen State.trace⟩

/-! ## One iteration of the driver as a run (44_collaborators.md R223) -/

theorem animIndex_of_pos {period : Nat} (h : 1 ≤ period) (t : Nat) : animIndex period t = Fin.ofNat 15 (t / period) :=
  if_neg (Nat.one_le_iff_ne_zero.mp h)

theorem after_tbRead_of_stopped {s : State} (hf : s.fault = false) (hr : s.tbRun = false) :
    after (.command (encode .tbRead)) s = raiseFault .readBeforeInit s :=
  after_encode rfl ((exec_tbRead hf).trans (if_neg (Bool.eq_false_iff.mp hr)))

section Iteration

variable {gaps : Nat → List Event} {s : State}

theorem runEvents_withGaps_singleton (gaps : Nat → List Event) (k : Nat) (i : Instr) (s : State) :
    runEvents (withGaps gaps k [i]) s = afterGap gaps k i s := runEvents_withGaps_cons gaps k i [] s

/-- Where TB_READ delivers t, the iteration is the run of all three commands. -/
theorem driverIteration_of_some (period : Nat) {t : Word} (h : (afterGap gaps 0 .tbRead s).result = some t) :
    driverIteration period gaps s =
      runEvents (withGaps gaps 0 (.tbRead :: driverCommands s.cfg.toParamValues period t.toNat) ++ gaps 3) s := by
  simp only [driverIteration, runEvents_withGaps_singleton, h]
  rw [runEvents_append, ← runEvents_withGaps_cons, ← runEvents_append]

/-- Where TB_READ delivers nothing, the iteration ends with it. -/
theorem driverIteration_of_none (period : Nat) (h : (afterGap gaps 0 .tbRead s).result = none) :
    driverIteration period gaps s = afterGap gaps 0 .tbRead s := by
  simp only [driverIteration, runEvents_withGaps_singleton, h]

/-- The three commands of an iteration, with nothing between them. -/
theorem runEvents_readAndShow (hf : s.fault = false) (hr : s.tbRun = true) {raw : Nat} (hraw : raw < 2 ^ 16) :
    runEvents ([.tbRead, .frameSet raw, .refresh].map fun i => .command (encode i)) s =
      silent (refreshStep { s with frame := construct s.cfg.toParamValues raw }) := by
  simp only [List.map_cons, List.map_nil, runEvents]
  rw [after_tbRead hf hr, after_frameSet (by exact hf) hraw, after_refresh (by exact hf)]
  rfl

variable (hgaps : ∀ k, ∀ e ∈ gaps k, e.ofTickSource = true) (hf : s.fault = false)
include hgaps hf

theorem afterGap_tbRead (hr : s.tbRun = true) :
    afterGap gaps 0 .tbRead s = deliver (runEvents (gaps 0) s).tbCount (runEvents (gaps 0) s) := by
  obtain ⟨hfault, hrun, -, -⟩ := runEvents_gap_keeps (hgaps 0) s
  exact after_tbRead (hfault.trans hf) (hrun.trans hr)

theorem afterGap_tbRead_of_stopped (hr : s.tbRun = false) :
    afterGap gaps 0 .tbRead s = raiseFault .readBeforeInit (runEvents (gaps 0) s) := by
  obtain ⟨hfault, hrun, -, -⟩ := runEvents_gap_keeps (hgaps 0) s
  exact after_tbRead_of_stopped (hfault.trans hf) (hrun.trans hr)

/-- With any gaps the three commands show the stored frame's row at the cursor, as they do with none. -/
theorem display_of_readAndShow (hr : s.tbRun = true) {raw : Nat} (hraw : raw < 2 ^ 16) :
    let f := construct s.cfg.toParamValues raw
    let u := runEvents (withGaps gaps 0 [.tbRead, .frameSet raw, .refresh] ++ gaps 3) s
    u.fault = false ∧ u.frame = f ∧ u.rowAct = onehot s.cursor ∧ u.colAct = row f s.cursor ∧
    u.cursor.val = (s.cursor.val + 1) % 3 := by
  intro f u
  have hshown := tickSourceNeverDisturbsTheDisplay (withGaps gaps 0 [.tbRead, .frameSet raw, .refresh] ++ gaps 3) s
  rw [List.filter_append, filter_withGaps hgaps, filter_gap (hgaps 3), List.append_nil, runEvents_readAndShow hf hr hraw] at hshown
  obtain ⟨hframe, hcursor, -, -, -, hfault, -, hlines⟩ := hshown
  obtain ⟨hrows, hcols⟩ := hlines (hfault.trans hf)
  exact ⟨hfault.trans hf, hframe, hrows, hcols, congrArg Fin.val hcursor⟩

end Iteration

/-- Settles O53: once TB_READ has delivered t the iteration is the run of the three commands; before TB_INIT it ends with TB_READ's
fault. -/
theorem driverIterationShowsTheSelectedFrame : Obligations.DriverIterationShowsTheSelectedFrame := by
  intro period gaps s hperiod hf hgaps t shown u
  refine ⟨fun hr => ?_, fun hr => ?_⟩
  · have hread : (afterGap gaps 0 .tbRead s).result = some t := by rw [afterGap_tbRead hgaps hf hr, deliver_result]
    have hraw : shown.toNat < 2 ^ 16 := (toNat_construct_lt s.cfg _).trans (by decide)
    have hu : u = runEvents (withGaps gaps 0 [.tbRead, .frameSet shown.toNat, .refresh] ++ gaps 3) s := by
      have hrun : u = _ := driverIteration_of_some period hread
      rwa [driverCommands, animIndex_of_pos hperiod] at hrun
    have hdisplay := display_of_readAndShow hgaps hf hr hraw
    rw [show construct s.cfg.toParamValues shown.toNat = shown from construct_toNat_construct s.cfg _, ← hu] at hdisplay
    refine ⟨?_, decide_eq_true hraw, ?_, hdisplay⟩
    · rwa [runEvents_append]
    · rw [hu]
      simp [withGaps]
  · obtain ⟨-, -, hframe, htrace⟩ := runEvents_gap_keeps (hgaps 0) s
    have hread := afterGap_tbRead_of_stopped hgaps hf hr
    have hu : u = raiseFault .readBeforeInit (runEvents (gaps 0) s) :=
      (driverIteration_of_none period (by rw [hread, raiseFault_result])).trans hread
    rw [hu]
    exact ⟨rfl, rfl, hframe, htrace⟩

end Sys2Proof.Machine

/-! # Proofs of the family 60_exceptions.md (O42, O41, O43)

A step that is no reset turns a faulted block s into `halted s` (`Performs.eq_halted`), which is s but for the lines; so a run of such
steps stays halted as well (`staysHalted_runEvents`). -/

namespace Sys2Proof.Machine

/-! ## While FAULT = 1 (60_exceptions.md R244) -/

theorem after_of_fault {e : Event} {s : State} (hf : s.fault = true) (he : e ≠ .reset) : after e s = halted s :=
  (performs_after e s).eq_halted hf he

theorem staysHalted_halted (s : State) : StaysHalted s (halted s) := rfl

/-- Settles O41. -/
theorem faultedBlockAcceptsNothing : Obligations.FaultedBlockAcceptsNothing := by
  intro e s hf he
  refine ⟨after e s, perform_eq_after e s, ?_⟩
  rw [after_of_fault hf he]
  exact staysHalted_halted s

/-- What is halted after `halted s` is halted after s: the two differ only in what `StaysHalted` leaves open. -/
theorem StaysHalted.of_halted {s t : State} (h : StaysHalted (halted s) t) : StaysHalted s t := h

/-- By induction on the steps. The run of no step keeps the last result, so the statement is about the end of the run made silent. -/
theorem staysHalted_runEvents {es : List Event} {s : State} (hes : .reset ∉ es) (hf : s.fault = true) :
    StaysHalted s (silent (runEvents es s)) := by
  induction es generalizing s with
  | nil => rfl
  | cons e es ih =>
    obtain ⟨he, hes⟩ := not_or.mp (mt List.mem_cons.mpr hes)
    rw [runEvents, after_of_fault hf (Ne.symm he)]
    exact (ih hes ((halted_fault s).trans hf)).of_halted

/-! ## Reset is the way out (60_exceptions.md R249, 70_reset_and_hazards.md R280) -/

/-- Settles O42: the run stays halted, element by element, and the reset input clears FAULT. -/
theorem onlyResetEndsAFault : Obligations.OnlyResetEndsAFault := by
  intro es s hf hes t
  have h : StaysHalted s (silent t) := staysHalted_runEvents hes hf
  obtain ⟨hframe, hcursor, -, -, hcount, hfrac, hrun, hpend, hie, hfault, hcode, -, -, htrace, -⟩ := State.mk.inj h
  exact ⟨hfault.trans hf, hcode, hie, hframe, hcursor, hcount, hfrac, hrun, hpend, htrace, resetInput_fault t⟩

/-! ## No step stops (60_exceptions.md R240, R241) -/

/-- Settles O43: a waiting block waits, and performing the head of the schedule answers a next state. -/
theorem stepAlwaysAnswersANextState : Obligations.StepAlwaysAnswersANextState := by
  intro s
  cases hs : s.schedule with
  | nil => exact ⟨waitStep s, step_of_nil hs⟩
  | cons e rest =>
    rw [step_eq_perform hs]
    exact perform_isNext e _

end Sys2Proof.Machine
